-- ==== Sys2Proof/Word.lean ====
section
/-! DEFINITION. The words of the 6420: bytes, 16-bit and 32-bit words, and the largest values of its saturating counters. -/

namespace Sys2Proof

/-- One byte of a link descriptor, a request frame or a response frame. -/
abbrev Byte := BitVec 8

/-- A 16-bit word: a sequence number or a tag. -/
abbrev Half := BitVec 16

/-- A 32-bit word that wraps or carries bits: the cycle count, a tick time, a detail word, a notice word. -/
abbrev Word := BitVec 32

/-- The largest value of a 32-bit saturating counter (00_scope.md, Counters). -/
def max32 : Nat := 4294967295

/-- The largest value of a 16-bit saturating counter (00_scope.md, Counters). -/
def max16 : Nat := 65535

end Sys2Proof
end

