-- ==== Sys2Proof/Syntax.lean ====
section
/-! DEFINITION. The commands: one constructor for each row of spec/opcode_table.json, with the operands the model gives it
(the table gives none; notes/assumptions/4, 5, 6, 8, 9, 12, 19). -/

namespace Sys2Proof

/-- The three Access Ports (09, R155). -/
inductive Port where
  | ap0 | ap1 | ap2
  deriving DecidableEq, Repr

/-- The block that hands an append to the Condition Log (R122, R123). -/
inductive LogSource where
  | intake | cycleMonitor | streamTable | classifier | ratingUnit | sweepEngine | watchBlock
  deriving DecidableEq, Repr

/-- The block that sends a device notice (the kinds table of 10). -/
inductive NoticeSource where
  | conditionLog | lockArbiter | sweepEngine | watchBlock | captureBuffer
  deriving DecidableEq, Repr

/-- The four status latches of a port (R164). -/
inductive Latch where
  | noticeOverflow | logOverrun | captureDone | deviceAlert
  deriving DecidableEq, Repr

/-- Whether the storage of the slot an access reaches loses its parity: before the access's check (R45), and before the read
at the end of the access (R47). DESIGN CHOICE (notes/assumptions/5): the spec does not say when storage fails. -/
structure Upset where
  before : Bool
  during : Bool
  deriving DecidableEq, Repr

/-- The rows of spec/opcode_table.json. -/
inductive Instr where
  -- RESET and start-up (09)
  | resetAssert
  | resetRelease
  /-- `strobe`: whether the link's valid strobe is asserted at the end of INIT (R15). -/
  | initEnd (strobe : Bool)
  -- Observation Link and Intake (01)
  /-- `bytes`: the bytes of the run, from the rise of the strobe to its fall (R1). -/
  | descriptorRun (bytes : List Byte)
  | linkApply
  -- Line timebase (02)
  /-- `dt`: the whole microseconds the local cycle timer counts from where it stands to the pulse. -/
  | lineCyclePulse (dt : Nat)
  | timerExpiry
  -- what a cycle event drives (03, 06, 10)
  | silenceCheck (u : Upset)
  | ratingCycleEvent
  | ratingDue
  | ratingStep (u : Upset)
  | lockCycleEvent
  | leaseExpiry
  -- the Classifier and the Watch Block (04, 08)
  | frameTake (u : Upset)
  | watchHandoff
  -- sweeps and walks (05)
  | clearStep (upset : Bool)
  | scrubStep (upset : Bool)
  | markVisit (p : Port) (upset : Bool)
  -- the Condition Log, the Notice Unit, the status latches (07, 10, 09)
  | logAppend (src : LogSource)
  | noticePlace (src : NoticeSource)
  | statusSourceSet (p : Port) (l : Latch)
  -- the port exchange (09)
  /-- `bytes`: the bytes the master shifts in, in this select period, since the last such command. -/
  | requestComplete (p : Port) (bytes : List Byte)
  | blockAnswer (p : Port)
  /-- `sent`: how many bytes of the response frame were shifted out before select was released (R157). -/
  | selectRelease (p : Port) (sent : Nat)
  | selectRefused (p : Port)
  -- commands of the port itself (09)
  | identify (p : Port)
  | readStatus (p : Port)
  | clearStatus (p : Port)
  | setAttention (p : Port)
  | rearmAttention (p : Port)
  | portReset (p : Port)
  | portResetNotices (p : Port)
  | portResetMarks (p : Port)
  | portResetLog (p : Port)
  | portResetLock (p : Port)
  | portResetWatch (p : Port)
  | softReset (p : Port)
  | softResetNotices (issuer : Port)
  | softResetLock (issuer : Port)
  /-- `late`: whether the count of the last frame taken reaches the Intake after its counters are zeroed (R55). -/
  | softResetIntake (issuer : Port) (late : Bool)
  | softResetSweep (issuer : Port)
  | softResetRating (issuer : Port)
  | softResetWatch (issuer : Port)
  | softResetPort (issuer : Port) (q : Port)
  | softResetLog (issuer : Port)
  /-- `upsets`: the slots whose storage loses its parity before the visit checks it. -/
  | softResetVisit (issuer : Port) (upsets : List Nat)
  -- commands of the Intake and the Cycle Monitor (01, 02)
  | readIntake (p : Port)
  /-- `dt`: the whole microseconds the local cycle timer counts from where it stands to the reading. -/
  | readTimebase (p : Port) (dt : Nat)
  | setTimebase (p : Port)
  -- commands of the Stream Table (03, 04, 05, 06)
  | defineStream (p : Port)
  | redefineStream (p : Port) (upset : Bool)
  | retireStream (p : Port)
  | readDefinition (p : Port) (upset : Bool)
  | listStreams (p : Port)
  | readStrays (p : Port)
  | clearStrays (p : Port)
  | readWindow (p : Port) (upset : Bool)
  | mark (p : Port)
  | readSheet (p : Port) (upset : Bool)
  -- commands of the Sweep Engine (05)
  | clearTallies (p : Port)
  | startScrub (p : Port)
  | abortSweep (p : Port)
  | readSweep (p : Port)
  -- grades (06)
  | setGrading (p : Port) (upset : Bool)
  | setRating (p : Port)
  | readGrades (p : Port) (upset : Bool)
  | readRating (p : Port)
  -- commands of the Condition Log (07)
  | readLog (p : Port)
  | seekLog (p : Port)
  | eraseLog (p : Port)
  | setSubscription (p : Port)
  | readLogStatus (p : Port)
  -- commands of the Watch Block and the Capture Buffer (08)
  | armWatch (p : Port)
  | disarmWatch (p : Port)
  | readWatch (p : Port)
  | readCapture (p : Port)
  | releaseCapture (p : Port)
  -- commands of the Lock Arbiter and the Notice Unit (10)
  | claimLock (p : Port)
  | releaseLock (p : Port)
  | setLease (p : Port)
  | readLock (p : Port)
  | postNote (p : Port)
  | peekNotice (p : Port)
  | takeNotice (p : Port)
  | flushNotices (p : Port)
  deriving DecidableEq, Repr

end Sys2Proof
end

