-- ==== Sys2Proof/Config.lean ====
section
/-! DEFINITION. What the part fixes: its capacities (00_scope.md, Capacities; R168) and the parameters that device reset restores.
The three opaque constants are free values: bytes of READ-INTAKE whose codes the spec does not state (notes/assumptions/24). -/

namespace Sys2Proof.Config

/-- Stream slots of the Stream Table (R32). -/
def streamSlots : Nat := 512
/-- Records the Condition Log holds (R125). -/
def logRecords : Nat := 128
/-- Notices one port's queue holds (R180). -/
def queueNotices : Nat := 15
/-- Watch units (R138). -/
def watchUnits : Nat := 4
/-- Entries of the Capture Buffer (R148). -/
def captureEntries : Nat := 64
/-- Entries of the stray list (R49). -/
def strayEntries : Nat := 16
/-- Descriptors of the ingest queue (R4). -/
def ingestDescriptors : Nat := 256
/-- Entries of a stream's history (R76). -/
def historyEntries : Nat := 4
/-- The part code that IDENTIFY returns, 6420h (R168). -/
def partCode : Nat := 0x6420
/-- The revision that IDENTIFY returns (R168). -/
def revision : Nat := 1
/-- The fill at which the high-mark report is made (R6). -/
def highMark : Nat := 224
/-- The fill at which the high-mark report is armed again (R6). -/
def rearmMark : Nat := 128
/-- Most data bytes of a READ-LOG answer (R129). -/
def readLogBytes : Nat := 250

/-- Cycle length L after device reset, in microseconds (R31). -/
def resetCycleLength : Nat := 1000
/-- Tolerance T after device reset, in microseconds (R31). -/
def resetTolerance : Nat := 20
/-- Holdover limit after device reset, in cycles (R31). -/
def resetHoldoverLimit : Nat := 64
/-- Rating interval R after device reset, in cycle events (R118). -/
def resetRatingInterval : Nat := 2000
/-- Lease setting after device reset, in cycle events (R179). -/
def resetLeaseSetting : Nat := 20000

/-- The byte by which READ-INTAKE reports the high-mark report, by whether it is SPENT: a free value (R14 gives no codes). -/
opaque highMarkByte : Bool → Byte
/-- The byte by which READ-INTAKE reports the loss episode, by whether it is OPEN: a free value (R14 gives no codes). -/
opaque episodeByte : Bool → Byte
/-- The byte by which READ-INTAKE reports the state of a path, by whether it is UP: a free value (R14 gives no codes). -/
opaque pathStateByte : Bool → Byte

end Sys2Proof.Config
end

