-- ==== Sys2Proof/Machine/State.lean ====
section
/-! DEFINITION. The state of the 6420 as plain data, block by block (00_scope.md, Block overview), what is on its way from one
block to another, and the state right after device reset. -/

namespace Sys2Proof.Machine

/-! ### Collections of a fixed number of like things -/

/-- One value for each Access Port. -/
structure PerPort (α : Type) where
  ap0 : α
  ap1 : α
  ap2 : α
  deriving DecidableEq, Repr

/-- The same value for each port. -/
def PerPort.all {α : Type} (x : α) : PerPort α := ⟨x, x, x⟩

/-- The value of one port. -/
def PerPort.get {α : Type} (v : PerPort α) : Port → α
  | .ap0 => v.ap0
  | .ap1 => v.ap1
  | .ap2 => v.ap2

/-- Replaces the value of one port. -/
def PerPort.set {α : Type} (v : PerPort α) : Port → α → PerPort α
  | .ap0, x => { v with ap0 := x }
  | .ap1, x => { v with ap1 := x }
  | .ap2, x => { v with ap2 := x }

/-- The four grades, in the order in which they are listed (06). -/
inductive Grade where
  | loss | timing | order | path
  deriving DecidableEq, Repr

/-- One value for each grade. -/
structure PerGrade (α : Type) where
  loss : α
  timing : α
  order : α
  path : α
  deriving DecidableEq, Repr

/-- The same value for each grade. -/
def PerGrade.all {α : Type} (x : α) : PerGrade α := ⟨x, x, x, x⟩

/-- The value of one grade. -/
def PerGrade.get {α : Type} (v : PerGrade α) : Grade → α
  | .loss => v.loss
  | .timing => v.timing
  | .order => v.order
  | .path => v.path

/-- The nine tally categories, in tally order (R82). -/
inductive Tally where
  | accepted | dropped | late | reordered | rescued | duplicate | straggler | missedA | missedB
  deriving DecidableEq, Repr

/-- One value for each tally category. -/
structure Nine (α : Type) where
  accepted : α
  dropped : α
  late : α
  reordered : α
  rescued : α
  duplicate : α
  straggler : α
  missedA : α
  missedB : α
  deriving DecidableEq, Repr

/-- The same value for each category. -/
def Nine.all {α : Type} (x : α) : Nine α := ⟨x, x, x, x, x, x, x, x, x⟩

/-- The value of one category. -/
def Nine.get {α : Type} (v : Nine α) : Tally → α
  | .accepted => v.accepted
  | .dropped => v.dropped
  | .late => v.late
  | .reordered => v.reordered
  | .rescued => v.rescued
  | .duplicate => v.duplicate
  | .straggler => v.straggler
  | .missedA => v.missedA
  | .missedB => v.missedB

/-- The four watch units (R138). -/
inductive UnitId where
  | w0 | w1 | w2 | w3
  deriving DecidableEq, Repr

/-- One value for each watch unit. -/
structure PerUnit (α : Type) where
  w0 : α
  w1 : α
  w2 : α
  w3 : α
  deriving DecidableEq, Repr

/-- The same value for each unit. -/
def PerUnit.all {α : Type} (x : α) : PerUnit α := ⟨x, x, x, x⟩

/-- The value of one unit. -/
def PerUnit.get {α : Type} (v : PerUnit α) : UnitId → α
  | .w0 => v.w0
  | .w1 => v.w1
  | .w2 => v.w2
  | .w3 => v.w3

/-- Replaces the value of one unit. -/
def PerUnit.set {α : Type} (v : PerUnit α) : UnitId → α → PerUnit α
  | .w0, x => { v with w0 := x }
  | .w1, x => { v with w1 := x }
  | .w2, x => { v with w2 := x }
  | .w3, x => { v with w3 := x }

/-! ### The Intake (01) -/

/-- The path on which a copy arrived: A, B or NONE (R2). -/
inductive PathCode where
  | a | b | none
  deriving DecidableEq, Repr

/-- The forwarding chip's two ring ports (R2, R9). -/
inductive RingPort where
  | port1 | port2
  deriving DecidableEq, Repr

/-- A FRAME descriptor as it is queued: its meaningful fields (R2, R186). FCS-bad is clear in every queued frame (R3). -/
structure Frame where
  ingress : Nat
  path : PathCode
  tag : Half
  seq : Half
  tick : Word
  length : Nat
  deriving DecidableEq, Repr

/-- A queued descriptor (R2). `up` is the new state UP of a LINK descriptor. -/
inductive Descriptor where
  | frame (f : Frame)
  | link (port : RingPort) (up : Bool)
  deriving DecidableEq, Repr

/-- The high-mark report (R6). -/
inductive HighMark where
  | armed | spent
  deriving DecidableEq, Repr

/-- A ring path (R9). -/
structure RingPath where
  up : Bool
  epoch : Byte
  deriving DecidableEq, Repr

/-- The device intake counters (R13), each saturating at `max32`. -/
structure IntakeCounters where
  received : Nat
  admitted : Nat
  lost : Nat
  badFrames : Nat
  malformedArrival : Nat
  malformedClass : Nat
  faultedDiscards : Nat
  strayEvictions : Nat
  gapCount : Nat
  deriving DecidableEq, Repr

/-- A count that the last frame taken made and that may still be on its way to the Intake (R55, notes/assumptions/19). -/
inductive FrameCount where
  | faultedDiscard | malformedClass
  deriving DecidableEq, Repr

/-- The Intake. `episode` is the count of an OPEN loss episode, none when CLOSED (R7). `staleRun` says that the run in progress
began before INIT ended (R1, R15). -/
structure Intake where
  queue : List Descriptor
  highMark : HighMark
  episode : Option Nat
  pathA : RingPath
  pathB : RingPath
  counters : IntakeCounters
  staleRun : Bool
  frameCount : Option FrameCount
  deriving DecidableEq, Repr

/-! ### The Cycle Monitor (02) -/

/-- The running local cycle timer (R18), in whole microseconds. -/
structure Timer where
  elapsed : Nat
  deadline : Nat
  deriving DecidableEq, Repr

/-- The timebase state; the timer is stopped in UNLOCKED and runs in the other three (R18). -/
inductive Timebase where
  | unlocked
  | acquiring (t : Timer)
  | locked (t : Timer)
  | holdover (t : Timer)
  deriving DecidableEq, Repr

/-- The Cycle Monitor. -/
structure Monitor where
  state : Timebase
  cycleCount : Word
  run : Nat
  earlyMarks : Nat
  cycleLength : Nat
  tolerance : Nat
  holdoverLimit : Nat
  deriving DecidableEq, Repr

/-! ### The Stream Table (03 to 06) -/

/-- The state of a slot (R32, R34). -/
inductive SlotState where
  | free | defined | tracking | stale | faulted
  deriving DecidableEq, Repr

/-- The settings of one grade (R33, R108). -/
structure GradeSetting where
  threshold : Nat
  step : Nat
  urgent : Bool
  deriving DecidableEq, Repr

/-- A stream definition less its tag (R33). -/
structure Definition where
  period : Nat
  lateWindow : Nat
  jump : Nat
  dual : Bool
  silence : Nat
  deriving DecidableEq, Repr

/-- A path tracker (R60): the high mark, none when absent, and the stamp. -/
structure Tracker where
  mark : Option Half
  stamp : Byte
  deriving DecidableEq, Repr

/-- A history entry (R76); also a lead-in entry (R119). -/
structure HistoryEntry where
  seq : Half
  path : PathCode
  tick : Word
  cats : BitVec 9
  deriving DecidableEq, Repr

/-- One grade as rated (R107, R109). -/
structure GradeState where
  current : Nat
  worst : Nat
  tripped : Bool
  deriving DecidableEq, Repr

/-- The record of a slot outside FREE (03, the stream record), less its tag and state, which the slot holds once for the record
and the tag map. In DEFINED the window, the reference and the last accepted cycle are absent and held as 0. -/
structure Record where
  definition : Definition
  settings : PerGrade GradeSetting
  base : Half
  high : Half
  acceptedSet : BitVec 32
  trackerA : Tracker
  trackerB : Tracker
  refSeq : Half
  refTick : Word
  lastCycle : Word
  history : List HistoryEntry
  tallies : Nine Nat
  marks : PerPort (Nine Nat)
  gapStamp : Nat
  intervals : PerGrade Nat
  grades : PerGrade GradeState
  intervalsRated : Nat
  deriving DecidableEq, Repr

/-- One slot of the Stream Table: its state and tag (the tag map's entry too), its record, and whether the parity of its
storage is good (R45, R99). -/
structure Slot where
  state : SlotState
  tag : Half
  record : Record
  parityGood : Bool
  deriving DecidableEq, Repr

/-- An entry of the stray list (R49). -/
structure Stray where
  tag : Half
  count : Nat
  firstSeen : Word
  lastSeen : Word
  lastPath : PathCode
  deriving DecidableEq, Repr

/-- The silence walks: the cycle events not yet walked, oldest first, each with the count it carries, and the slot that the
walk for the oldest has reached (R43). -/
structure SilenceWalk where
  events : List Word
  position : Nat
  deriving DecidableEq, Repr

/-- A MARK walk (R85, R86). -/
structure MarkWalk where
  last : Nat
  position : Nat
  marked : Nat
  faulted : Nat
  deriving DecidableEq, Repr

/-- The Stream Table. -/
structure Table where
  slots : Vector Slot 512
  strays : List Stray
  silence : SilenceWalk
  markWalks : PerPort (Option MarkWalk)
  deriving DecidableEq, Repr

/-! ### The Rating Unit and the Sweep Engine (05, 06) -/

/-- The Rating Unit. `events` counts the cycle events it has not taken yet (R19). -/
structure Rating where
  interval : Nat
  since : Nat
  sweep : Option Nat
  skips : Nat
  events : Nat
  deriving DecidableEq, Repr

/-- The kind of a commanded sweep (R91). -/
inductive SweepKind where
  | clear | scrub
  deriving DecidableEq, Repr

/-- A commanded sweep in flight (R91). -/
structure Sweep where
  kind : SweepKind
  first : Nat
  last : Nat
  position : Nat
  starter : Port
  faults : Nat
  deriving DecidableEq, Repr

/-! ### The Condition Log (07) -/

/-- The 22 kinds of condition (R120). -/
inductive Kind where
  | streamAcquired | streamSilent | streamResumed | sequenceBreak | gradeTripped | gradeCleared | recordFault
  | pathDown | pathUp
  | timebaseLocked | timebaseHoldover | timebaseLost | markEarly
  | ingestHigh | ingestLost | straySeen
  | watchFired
  | talliesCleared | logErased | softReset | streamDefined | streamRetired
  deriving DecidableEq, Repr

/-- The tallies snapshot of a record (R121). -/
structure Snapshot where
  dropped : Nat
  late : Nat
  reordered : Nat
  deriving DecidableEq, Repr

/-- The slot and tag of a record (R119). -/
structure Subject where
  slot : Nat
  tag : Half
  deriving DecidableEq, Repr

/-- A condition as its block hands it over: a record less its serial (R119). Its class is fixed by the kind (R120). -/
structure Condition where
  cycle : Word
  kind : Kind
  urgent : Bool
  subject : Option Subject
  detail : Word
  snapshot : Option Snapshot
  leadIn : List HistoryEntry
  deriving DecidableEq, Repr

/-- A condition record in the log (R119). -/
structure LogRecord where
  serial : Nat
  condition : Condition
  deriving DecidableEq, Repr

/-- An append on its way to the log. `last` says that it is the last of its access's records, which stand together in the log
(R123). `holds` names the port whose answer waits for it (notes/assumptions/11). -/
structure Append where
  source : LogSource
  condition : Condition
  last : Bool
  holds : Option Port
  deriving DecidableEq, Repr

/-- The Condition Log. `midAccess` is the source whose access's records are part taken (R123). -/
structure Log where
  records : List LogRecord
  nextSerial : Nat
  cursors : PerPort Nat
  overruns : PerPort Nat
  subscriptions : PerPort (BitVec 6)
  midAccess : Option LogSource
  deriving DecidableEq, Repr

/-! ### The Watch Block and the Capture Buffer (08) -/

/-- What the Classifier hands off for a classified frame (R80, R141). -/
structure Handoff where
  slot : Nat
  tag : Half
  seq : Half
  path : PathCode
  tick : Word
  incs : Nine Nat
  cycle : Word
  snapshot : Option Snapshot
  history : List HistoryEntry
  deriving DecidableEq, Repr

/-- The state of a watch unit (R138). -/
inductive UnitState where
  | free | armed | fired
  deriving DecidableEq, Repr

/-- The role of a watch unit (R138). -/
inductive Role where
  | single | pairEven | pairOdd
  deriving DecidableEq, Repr

/-- The firing part of a unit (R144). -/
structure Firing where
  category : Tally
  slot : Nat
  tag : Half
  cycle : Word
  deriving DecidableEq, Repr

/-- A watch unit. -/
structure WatchUnit where
  state : UnitState
  owner : Option Port
  role : Role
  low : Half
  high : Half
  invert : Bool
  mask : BitVec 9
  preset : Nat
  remaining : Nat
  captureLength : Nat
  firing : Option Firing
  deriving DecidableEq, Repr

/-- A capture entry (R189). -/
structure CaptureEntry where
  slot : Nat
  tag : Half
  seq : Half
  path : PathCode
  tick : Word
  cats : BitVec 9
  deriving DecidableEq, Repr

/-- The Capture Buffer when it is not EMPTY: FULL or FILLING, with its owner, source unit, length, range and entries. -/
structure Capture where
  full : Bool
  owner : Port
  source : UnitId
  length : Nat
  low : Half
  high : Half
  invert : Bool
  entries : List CaptureEntry
  deriving DecidableEq, Repr

/-- The Watch Block and the Capture Buffer (`capture`, none when EMPTY), with the hand-offs it has not taken yet. -/
structure Watch where
  units : PerUnit WatchUnit
  capture : Option Capture
  handoffs : List Handoff
  deriving DecidableEq, Repr

/-! ### The Lock Arbiter and the Notice Unit (10) -/

/-- A HELD lock: the holder and the lease remaining, none when it has no expiry (R172, R173). -/
structure Holding where
  port : Port
  lease : Option Nat
  deriving DecidableEq, Repr

/-- The Lock Arbiter. `holding` is none when the lock is FREE; `events` counts the cycle events it has not taken yet. -/
structure Lock where
  holding : Option Holding
  waiters : List Port
  setting : Nat
  events : Nat
  deriving DecidableEq, Repr

/-- The kinds of notice (10, the kinds table). -/
inductive NoticeKind where
  | note | condition | lockGranted | lockLost | sweepDone | watchFired | captureDone
  deriving DecidableEq, Repr

/-- A notice; its source is none for DEVICE (R189). -/
structure Notice where
  kind : NoticeKind
  source : Option Port
  word : Word
  deriving DecidableEq, Repr

/-- A device notice on its way to a port's queue. -/
structure Posted where
  sender : NoticeSource
  port : Port
  notice : Notice
  deriving DecidableEq, Repr

/-! ### The Access Ports (09) -/

/-- The port state (R157). -/
inductive PortState where
  | init | idle | executing | answering
  deriving DecidableEq, Repr

/-- The select line of a port, and whether its period is refused (R159). -/
inductive Select where
  | released | open_ | refused
  deriving DecidableEq, Repr

/-- The request in hand: its command code and number as received, its arguments, and whether its block has taken it (R157). -/
structure Request where
  code : Byte
  number : Byte
  args : List Byte
  taken : Bool
  deriving DecidableEq, Repr

/-- The response codes (R161). -/
inductive Response where
  | ok | started | renewed | queued | empty | notReady | badFrame | unknownCommand | badValue | noSuchStream | tagInUse
  | tableFull | lockRequired | lockHeld | notHolder | notOwner | busy | faulted | queueFull
  deriving DecidableEq, Repr

/-- An answer of a block: a response code and its data (R161). -/
structure Answer where
  code : Response
  data : List Byte
  deriving DecidableEq, Repr

/-- The delivery of an answered exchange (R163). -/
inductive Delivery where
  | whole | cut
  deriving DecidableEq, Repr

/-- The exchange record (R163). -/
structure Exchange where
  number : Byte
  code : Byte
  response : Byte
  delivery : Delivery
  deriving DecidableEq, Repr

/-- The four status latches (R164). -/
structure Latches where
  noticeOverflow : Bool
  logOverrun : Bool
  captureDone : Bool
  deviceAlert : Bool
  deriving DecidableEq, Repr

/-- One Access Port. `attn` is true when ATTN is ASSERTED. `answer` is the block's answer not yet given to the port. -/
structure Access where
  state : PortState
  select : Select
  received : List Byte
  request : Option Request
  answer : Option Answer
  response : List Byte
  exchange : Option Exchange
  latches : Latches
  enables : BitVec 5
  attn : Bool
  deriving DecidableEq, Repr

/-- A status source set event on its way to a port (R164). -/
structure StatusEvent where
  port : Port
  latch : Latch
  deriving DecidableEq, Repr

/-- Which block parts of a port reset are done (R169). -/
structure PortResetParts where
  notices : Bool
  marks : Bool
  log : Bool
  lock : Bool
  watch : Bool
  deriving DecidableEq, Repr

/-- Which parts of a soft reset are done (R170). -/
structure SoftResetParts where
  notices : Bool
  lock : Bool
  intake : Bool
  sweep : Bool
  rating : Bool
  watch : Bool
  ports : PerPort Bool
  log : Bool
  deriving DecidableEq, Repr

/-- RESET asserted, start-up INIT, or running (R162). -/
inductive Startup where
  | resetAsserted | initializing | running
  deriving DecidableEq, Repr

/-- The state of the 6420, with the queue of commands that wait. -/
structure State where
  pending : List Instr
  startup : Startup
  intake : Intake
  monitor : Monitor
  table : Table
  classifier : Option Handoff
  rating : Rating
  sweep : Option Sweep
  log : Log
  watch : Watch
  lock : Lock
  queues : PerPort (List Notice)
  ports : PerPort Access
  appends : List Append
  posted : List Posted
  statusEvents : List StatusEvent
  portResets : PerPort (Option PortResetParts)
  softResets : PerPort (Option SoftResetParts)
  deriving DecidableEq, Repr

/-- What stops the machine: nothing. Every event of the 6420 has a meaning in every state, so no command faults. -/
inductive Fault
  deriving DecidableEq, Repr

/-- What the model gives no meaning to. -/
inductive Refusal where
  /-- Raised by `exec` for a row of the opcode table that has no meaning yet; safe. No arm raises it. -/
  | notModelled (mnemonic : String)
  deriving DecidableEq, Repr

/-! ### The values after device reset -/

/-- A path after device reset (R9). -/
def RingPath.reset : RingPath := { up := true, epoch := 0 }

/-- The Intake after device reset (01, state table). -/
def Intake.reset : Intake :=
  { queue := [], highMark := .armed, episode := none, pathA := .reset, pathB := .reset,
    counters := { received := 0, admitted := 0, lost := 0, badFrames := 0, malformedArrival := 0, malformedClass := 0,
                  faultedDiscards := 0, strayEvictions := 0, gapCount := 0 },
    staleRun := false, frameCount := none }

/-- The Cycle Monitor after device reset (R31). -/
def Monitor.reset : Monitor :=
  { state := .unlocked, cycleCount := 0, run := 0, earlyMarks := 0, cycleLength := Config.resetCycleLength,
    tolerance := Config.resetTolerance, holdoverLimit := Config.resetHoldoverLimit }

/-- A tracker whose high mark is absent: value and stamp 0 (R60). -/
def Tracker.absent : Tracker := { mark := none, stamp := 0 }

/-- The settings of a grade that a definition does not name (R33). -/
def GradeSetting.default : GradeSetting := { threshold := 0, step := 10, urgent := false }

/-- A grade after definition, a clear step or soft reset (R94, R107). -/
def GradeState.clean : GradeState := { current := 200, worst := 200, tripped := false }

/-- What a record holds apart from its definition, settings and gap stamp when DEFINE-STREAM creates it (03, the stream
record, last column). -/
def Record.fresh (d : Definition) (settings : PerGrade GradeSetting) (gapStamp : Nat) : Record :=
  { definition := d, settings := settings, base := 0, high := 0, acceptedSet := 0, trackerA := .absent, trackerB := .absent,
    refSeq := 0, refTick := 0, lastCycle := 0, history := [], tallies := .all 0, marks := .all (.all 0),
    gapStamp := gapStamp, intervals := .all 0, grades := .all .clean, intervalsRated := 0 }

/-- The definition held in the clean storage of a FREE slot: nothing. -/
def Definition.blank : Definition := { period := 0, lateWindow := 0, jump := 0, dual := false, silence := 0 }

/-- A FREE slot with clean storage and good parity (R39, R53). -/
def Slot.free : Slot :=
  { state := .free, tag := 0, record := .fresh .blank (.all .default) 0, parityGood := true }

/-- The Stream Table after device reset (R53). -/
def Table.reset : Table :=
  { slots := Vector.replicate 512 .free, strays := [], silence := { events := [], position := 0 }, markWalks := .all none }

/-- The Rating Unit after device reset (R118). -/
def Rating.reset : Rating := { interval := Config.resetRatingInterval, since := 0, sweep := none, skips := 0, events := 0 }

/-- The Condition Log after device reset (R135). -/
def Log.reset : Log :=
  { records := [], nextSerial := 1, cursors := .all 1, overruns := .all 0, subscriptions := .all 0, midAccess := none }

/-- A FREE watch unit (R138, R153). -/
def WatchUnit.free : WatchUnit :=
  { state := .free, owner := none, role := .single, low := 0, high := 0, invert := false, mask := 0, preset := 0,
    remaining := 0, captureLength := 0, firing := none }

/-- The Watch Block after device reset (R153). -/
def Watch.reset : Watch := { units := .all .free, capture := none, handoffs := [] }

/-- The Lock Arbiter after device reset (R179). -/
def Lock.reset : Lock := { holding := none, waiters := [], setting := Config.resetLeaseSetting, events := 0 }

/-- Clear latches (R164). -/
def Latches.clear : Latches := { noticeOverflow := false, logOverrun := false, captureDone := false, deviceAlert := false }

/-- A port after device reset (09, state table). Its select line is taken as released (DESIGN CHOICE, notes/assumptions/9). -/
def Access.reset : Access :=
  { state := .init, select := .released, received := [], request := none, answer := none, response := [], exchange := none,
    latches := .clear, enables := 0, attn := false }

/-- The machine right after device reset: RESET asserted, every port in INIT, every block at its device-reset values (R171). -/
def State.reset : State :=
  { pending := [], startup := .resetAsserted, intake := .reset, monitor := .reset, table := .reset, classifier := none,
    rating := .reset, sweep := none, log := .reset, watch := .reset, lock := .reset, queues := .all [],
    ports := .all .reset, appends := [], posted := [], statusEvents := [], portResets := .all none, softResets := .all none }

end Sys2Proof.Machine
end

