-- ==== Sys2Proof/Machine/Operands.lean ====
section
/-! DEFINITION. The operand forms and byte layouts of the 6420: little-endian fields, serial arithmetic, command codes and
arguments, link descriptors, response frames and every format of 11_formats.md. -/

namespace Sys2Proof.Machine

/-! ### Bytes and fields (R184, R185) -/

/-- An unsigned number from its bytes, least significant first (R185). -/
def leNat : List Byte → Nat
  | [] => 0
  | b :: bs => b.toNat + 256 * leNat bs

/-- The `n` low bytes of a number, least significant first (R185). -/
def leBytes : Nat → Nat → List Byte
  | 0, _ => []
  | n + 1, v => BitVec.ofNat 8 v :: leBytes n (v / 256)

/-- The field of `n` bytes at an offset (R184). -/
def fieldAt (bytes : List Byte) (offset n : Nat) : Nat := leNat ((bytes.drop offset).take n)

/-- The sum of bytes mod 256 (R185). -/
def sumBytes : List Byte → Byte
  | [] => 0
  | b :: bs => b + sumBytes bs

/-- The check byte that closes a format: all bytes then sum to 0 mod 256 (R185). -/
def checkByte (bytes : List Byte) : Byte := -sumBytes bytes

/-- One byte, 1 for true. -/
def flagByte (b : Bool) : Byte := if b then 1 else 0

/-- Saturating addition (00_scope.md, Counters). -/
def satAdd (limit n k : Nat) : Nat := min limit (n + k)

/-! ### Serial arithmetic (00_scope.md, Sequence numbers; R124) -/

/-- The signed difference d(S, H), in −32768..32767. -/
def seqDiff (s h : Half) : Int := (s - h).toInt

/-- The successor of a serial: serial 0 is never given (R124). -/
def serialSucc (n : Nat) : Nat := if n = max32 then 1 else n + 1

/-! ### Codes -/

/-- The number of a port, 0..2 (R168). -/
def portNumber : Port → Nat
  | .ap0 => 0
  | .ap1 => 1
  | .ap2 => 2

/-- The port of a number 0..2. -/
def portOfNumber : Nat → Option Port
  | 0 => some .ap0
  | 1 => some .ap1
  | 2 => some .ap2
  | _ => none

/-- The three ports, AP0 first. -/
def allPorts : List Port := [.ap0, .ap1, .ap2]

/-- The path code (R184). -/
def pathNumber : PathCode → Nat
  | .a => 0
  | .b => 1
  | .none => 2

/-- The path of a code 0..2 (R186). -/
def pathOfNumber : Nat → Option PathCode
  | 0 => some .a
  | 1 => some .b
  | 2 => some .none
  | _ => none

/-- The number of a ring port (R2). -/
def ringPortNumber : RingPort → Nat
  | .port1 => 1
  | .port2 => 2

/-- The state code of a slot (R39, R41, R42). -/
def slotStateNumber : SlotState → Nat
  | .free => 0
  | .defined => 1
  | .tracking => 2
  | .stale => 3
  | .faulted => 4

/-- The code of a grade (R109). -/
def gradeNumber : Grade → Nat
  | .loss => 0
  | .timing => 1
  | .order => 2
  | .path => 3

/-- The four grades in order (06). -/
def allGrades : List Grade := [.loss, .timing, .order, .path]

/-- The code of a tally category (R184). -/
def tallyNumber : Tally → Nat
  | .accepted => 0
  | .dropped => 1
  | .late => 2
  | .reordered => 3
  | .rescued => 4
  | .duplicate => 5
  | .straggler => 6
  | .missedA => 7
  | .missedB => 8

/-- The nine categories in tally order (R82). -/
def allTallies : List Tally :=
  [.accepted, .dropped, .late, .reordered, .rescued, .duplicate, .straggler, .missedA, .missedB]

/-- The nine values in tally order. -/
def nineList {α : Type} (v : Nine α) : List α :=
  [v.accepted, v.dropped, v.late, v.reordered, v.rescued, v.duplicate, v.straggler, v.missedA, v.missedB]

/-- The four values in grade order. -/
def gradeList {α : Type} (v : PerGrade α) : List α := [v.loss, v.timing, v.order, v.path]

/-- Applies a function of two values to each category. -/
def nineMap2 {α β γ : Type} (f : α → β → γ) (a : Nine α) (b : Nine β) : Nine γ :=
  { accepted := f a.accepted b.accepted, dropped := f a.dropped b.dropped, late := f a.late b.late,
    reordered := f a.reordered b.reordered, rescued := f a.rescued b.rescued, duplicate := f a.duplicate b.duplicate,
    straggler := f a.straggler b.straggler, missedA := f a.missedA b.missedA, missedB := f a.missedB b.missedB }

/-- A set of tally categories as nine bits, ACCEPTED lowest (R184). -/
def categorySet (v : Nine Bool) : BitVec 9 :=
  BitVec.ofNat 9 ((if v.accepted then 1 else 0) + (if v.dropped then 2 else 0) + (if v.late then 4 else 0)
    + (if v.reordered then 8 else 0) + (if v.rescued then 16 else 0) + (if v.duplicate then 32 else 0)
    + (if v.straggler then 64 else 0) + (if v.missedA then 128 else 0) + (if v.missedB then 256 else 0))

/-- The classification set of a frame: the tallies whose increment is above 0 (R57). -/
def classificationSet (incs : Nine Nat) : BitVec 9 :=
  categorySet (nineMap2 (fun k (_ : Nat) => decide (0 < k)) incs incs)

/-- The saturation set of a sheet: the tallies standing at 4,294,967,295 (R89). -/
def saturationSet (tallies : Nine Nat) : BitVec 9 :=
  categorySet (nineMap2 (fun k (_ : Nat) => decide (k = max32)) tallies tallies)

/-- The unit of a number 0..3. -/
def unitOfNumber : Nat → Option UnitId
  | 0 => some .w0
  | 1 => some .w1
  | 2 => some .w2
  | 3 => some .w3
  | _ => none

/-- The number of a unit. -/
def unitNumber : UnitId → Nat
  | .w0 => 0
  | .w1 => 1
  | .w2 => 2
  | .w3 => 3

/-- The four units, W0 first. -/
def allUnits : List UnitId := [.w0, .w1, .w2, .w3]

/-- The other unit of a pair: W0 with W1, W2 with W3 (R138). -/
def partnerOf : UnitId → UnitId
  | .w0 => .w1
  | .w1 => .w0
  | .w2 => .w3
  | .w3 => .w2

/-- Whether a unit is W1 or W3. -/
def unitIsOdd : UnitId → Bool
  | .w1 | .w3 => true
  | .w0 | .w2 => false

/-- The code of a condition kind (R120). -/
def kindCode : Kind → Nat
  | .streamAcquired => 0x01
  | .streamSilent => 0x02
  | .streamResumed => 0x03
  | .sequenceBreak => 0x04
  | .gradeTripped => 0x05
  | .gradeCleared => 0x06
  | .recordFault => 0x07
  | .pathDown => 0x10
  | .pathUp => 0x11
  | .timebaseLocked => 0x20
  | .timebaseHoldover => 0x21
  | .timebaseLost => 0x22
  | .markEarly => 0x23
  | .ingestHigh => 0x30
  | .ingestLost => 0x31
  | .straySeen => 0x32
  | .watchFired => 0x40
  | .talliesCleared => 0x50
  | .logErased => 0x51
  | .softReset => 0x52
  | .streamDefined => 0x53
  | .streamRetired => 0x54

/-- The class code of a kind: 0 STREAM, 1 PATH, 2 TIMEBASE, 3 INTAKE, 4 WATCH, 5 ADMIN (R120). -/
def kindClass : Kind → Nat
  | .streamAcquired | .streamSilent | .streamResumed | .sequenceBreak | .gradeTripped | .gradeCleared | .recordFault => 0
  | .pathDown | .pathUp => 1
  | .timebaseLocked | .timebaseHoldover | .timebaseLost | .markEarly => 2
  | .ingestHigh | .ingestLost | .straySeen => 3
  | .watchFired => 4
  | .talliesCleared | .logErased | .softReset | .streamDefined | .streamRetired => 5

/-- The urgency that R120 fixes for a kind, true for URGENT. GRADE_TRIPPED takes its grade's setting instead (R109). -/
def kindUrgent : Kind → Bool
  | .streamSilent | .sequenceBreak | .recordFault | .pathDown | .timebaseHoldover | .timebaseLost | .ingestLost => true
  | .streamAcquired | .streamResumed | .gradeTripped | .gradeCleared | .pathUp | .timebaseLocked | .markEarly | .ingestHigh
  | .straySeen | .watchFired | .talliesCleared | .logErased | .softReset | .streamDefined | .streamRetired => false

/-- The code of a notice kind (10, the kinds table). -/
def noticeKindCode : NoticeKind → Nat
  | .note => 0
  | .condition => 1
  | .lockGranted => 2
  | .lockLost => 3
  | .sweepDone => 4
  | .watchFired => 5
  | .captureDone => 6

/-- The source byte of a notice: the posting port, or 3 for DEVICE (R189). -/
def noticeSourceCode : Option Port → Nat
  | some p => portNumber p
  | none => 3

/-- The code of a response (R161). -/
def responseCode : Response → Byte
  | .ok => 0x01
  | .started => 0x02
  | .renewed => 0x03
  | .queued => 0x04
  | .empty => 0x05
  | .notReady => 0x10
  | .badFrame => 0x11
  | .unknownCommand => 0x12
  | .badValue => 0x13
  | .noSuchStream => 0x14
  | .tagInUse => 0x15
  | .tableFull => 0x16
  | .lockRequired => 0x17
  | .lockHeld => 0x18
  | .notHolder => 0x19
  | .notOwner => 0x1a
  | .busy => 0x1b
  | .faulted => 0x1c
  | .queueFull => 0x1d

/-! ### Request and response frames (R156, R160, R161) -/

/-- The commands of the book. -/
inductive Command where
  | identify | readStatus | clearStatus | setAttention | rearmAttention | portReset | softReset
  | readIntake | readTimebase | setTimebase
  | defineStream | redefineStream | retireStream | readDefinition | listStreams | readStrays | clearStrays | readWindow
  | mark | readSheet | clearTallies | startScrub | abortSweep | readSweep
  | setGrading | setRating | readGrades | readRating
  | readLog | seekLog | eraseLog | setSubscription | readLogStatus
  | armWatch | disarmWatch | readWatch | readCapture | releaseCapture
  | claimLock | releaseLock | setLease | readLock
  | postNote | peekNotice | takeNotice | flushNotices
  deriving DecidableEq, Repr

/-- The code of a command, as the rule that introduces it gives it. -/
def commandCode : Command → Byte
  | .identify => 0x01
  | .readStatus => 0x02
  | .clearStatus => 0x03
  | .setAttention => 0x04
  | .rearmAttention => 0x05
  | .portReset => 0x06
  | .softReset => 0x07
  | .readIntake => 0x0a
  | .readTimebase => 0x0b
  | .setTimebase => 0x0c
  | .defineStream => 0x10
  | .redefineStream => 0x11
  | .retireStream => 0x12
  | .readDefinition => 0x13
  | .listStreams => 0x14
  | .readStrays => 0x15
  | .clearStrays => 0x16
  | .readWindow => 0x17
  | .mark => 0x18
  | .readSheet => 0x19
  | .clearTallies => 0x1a
  | .startScrub => 0x1b
  | .abortSweep => 0x1c
  | .readSweep => 0x1d
  | .setGrading => 0x20
  | .setRating => 0x21
  | .readGrades => 0x22
  | .readRating => 0x23
  | .readLog => 0x30
  | .seekLog => 0x31
  | .eraseLog => 0x32
  | .setSubscription => 0x33
  | .readLogStatus => 0x34
  | .armWatch => 0x40
  | .disarmWatch => 0x41
  | .readWatch => 0x42
  | .readCapture => 0x43
  | .releaseCapture => 0x44
  | .claimLock => 0x60
  | .releaseLock => 0x61
  | .setLease => 0x62
  | .readLock => 0x63
  | .postNote => 0x70
  | .peekNotice => 0x71
  | .takeNotice => 0x72
  | .flushNotices => 0x73

/-- Every command of the book. -/
def allCommands : List Command :=
  [.identify, .readStatus, .clearStatus, .setAttention, .rearmAttention, .portReset, .softReset,
   .readIntake, .readTimebase, .setTimebase,
   .defineStream, .redefineStream, .retireStream, .readDefinition, .listStreams, .readStrays, .clearStrays, .readWindow,
   .mark, .readSheet, .clearTallies, .startScrub, .abortSweep, .readSweep,
   .setGrading, .setRating, .readGrades, .readRating]
  ++ [.readLog, .seekLog, .eraseLog, .setSubscription, .readLogStatus,
   .armWatch, .disarmWatch, .readWatch, .readCapture, .releaseCapture,
   .claimLock, .releaseLock, .setLease, .readLock, .postNote, .peekNotice, .takeNotice, .flushNotices]

/-- Whether a code names a command of the book (R160). -/
def codeKnown (code : Byte) : Bool := allCommands.any (fun c => commandCode c == code)

/-- The length byte lies in 4..72 (R156). -/
def lengthGood (len : Byte) : Bool := decide (4 ≤ len.toNat) && decide (len.toNat ≤ 72)

/-- The request frame that the bytes of a select period complete, if they do (R156): the length byte alone when it is out of
range, else as many bytes as it says. Later bytes are not part of it. -/
def completeFrame : List Byte → Option (List Byte)
  | [] => none
  | len :: rest =>
    if lengthGood len then
      if len.toNat ≤ rest.length + 1 then some ((len :: rest).take len.toNat) else none
    else some [len]

/-- The command code, request number and arguments of a frame; 0 and none for a frame refused at its length byte (R163). -/
def frameRequest (frame : List Byte) : Request :=
  match frame with
  | _ :: code :: number :: rest => { code := code, number := number, args := rest.dropLast, taken := false }
  | _ => { code := 0, number := 0, args := [], taken := false }

/-- The port's checks of a complete frame, in order; none when it passes (R160). -/
def frameRefusal (frame : List Byte) : Option Response :=
  if !lengthGood (frame.headD 0) then some .badFrame
  else if sumBytes frame ≠ 0 then some .badFrame
  else if !codeKnown (frameRequest frame).code then some .unknownCommand
  else none

/-- The response frame of an answer (R161). -/
def responseFrame (a : Answer) : List Byte :=
  let body := responseCode a.code :: BitVec.ofNat 8 a.data.length :: a.data
  body ++ [checkByte body]

/-- An answer with no data. -/
def Answer.bare (code : Response) : Answer := { code := code, data := [] }

/-- An OK answer with data. -/
def Answer.okData (data : List Byte) : Answer := { code := .ok, data := data }

/-! ### Link descriptors (R3, R186) -/

/-- What the checks of R3 make of a descriptor of 16 bytes. -/
inductive Arrival where
  | malformed | badFrame | good (d : Descriptor)
  deriving DecidableEq, Repr

/-- The fields of a FRAME descriptor (R186). -/
def frameFields (bytes : List Byte) (path : PathCode) : Frame :=
  { ingress := fieldAt bytes 2 1, path := path, tag := BitVec.ofNat 16 (fieldAt bytes 4 2),
    seq := BitVec.ofNat 16 (fieldAt bytes 6 2), tick := BitVec.ofNat 32 (fieldAt bytes 8 4), length := fieldAt bytes 12 2 }

/-- Tests 2 to 5 of R3, of a FRAME descriptor. -/
def checkFrame (bytes : List Byte) : Arrival :=
  if (BitVec.ofNat 8 (fieldAt bytes 1 1)).getLsbD 0 then .badFrame
  else if fieldAt bytes 4 2 = 0 ∨ fieldAt bytes 4 2 = 65535 then .malformed
  else match pathOfNumber (fieldAt bytes 3 1) with
    | none => .malformed
    | some path =>
      if fieldAt bytes 2 1 ≤ 31 ∧ fieldAt bytes 12 2 ≠ 0 then .good (.frame (frameFields bytes path)) else .malformed

/-- The ring port of a code 1 or 2. -/
def ringPortOfNumber : Nat → Option RingPort
  | 1 => some .port1
  | 2 => some .port2
  | _ => none

/-- Test 6 of R3, of a LINK descriptor. -/
def checkLink (bytes : List Byte) : Arrival :=
  match ringPortOfNumber (fieldAt bytes 1 1), fieldAt bytes 2 1 with
  | some port, 0 => .good (.link port false)
  | some port, 1 => .good (.link port true)
  | _, _ => .malformed

/-- The ordered tests of R3 on the 16 bytes of a descriptor, by the layout of R186. -/
def checkDescriptor (bytes : List Byte) : Arrival :=
  match fieldAt bytes 0 1 with
  | 1 => checkFrame bytes
  | 2 => checkLink bytes
  | _ => .malformed

/-! ### Arguments of the commands -/

/-- A slot number that names a slot (R32). -/
def slotArg (n : Nat) : Option Nat := if n ≤ 511 then some n else none

/-- The one argument of a command that names a slot, two bytes. -/
def oneSlotArg (args : List Byte) : Option Nat :=
  if args.length = 2 then slotArg (fieldAt args 0 2) else none

/-- A range of slots, two bytes each, the first at most the last (R85, R92, R98). -/
def slotRangeArgs (args : List Byte) : Option (Nat × Nat) :=
  if args.length = 4 ∧ fieldAt args 0 2 ≤ fieldAt args 2 2 ∧ fieldAt args 2 2 ≤ 511 then
    some (fieldAt args 0 2, fieldAt args 2 2)
  else none

/-- The definition fields P, W, J, paths and h, eleven bytes, each in its range, with J × P below 2,147,483,648 (R33). -/
def definitionArgs (bytes : List Byte) : Option Definition :=
  let d : Definition :=
    { period := fieldAt bytes 0 3, lateWindow := fieldAt bytes 3 3, jump := fieldAt bytes 6 2,
      dual := fieldAt bytes 8 1 == 1, silence := fieldAt bytes 9 2 }
  if bytes.length = 11 ∧ 16 ≤ d.period ∧ d.lateWindow ≤ 1048575 ∧ 32 ≤ d.jump ∧ d.jump ≤ 4096 ∧ fieldAt bytes 8 1 ≤ 1
      ∧ 1 ≤ d.silence ∧ d.silence ≤ 4095 ∧ d.jump * d.period < 2147483648 then some d
  else none

/-- The threshold, step and urgency of one grade, three bytes, each in its range (R33). -/
def gradeSettingArg (bytes : List Byte) : Option GradeSetting :=
  let threshold := fieldAt bytes 0 1
  let step := fieldAt bytes 1 1
  let urgency := fieldAt bytes 2 1
  if bytes.length = 3 ∧ (threshold ≤ 200 ∨ threshold = 255) ∧ step ≤ 199 ∧ urgency ≤ 1 then
    some { threshold := threshold, step := step, urgent := urgency == 1 }
  else none

/-- Takes the settings of one grade from the front of the bytes when the presence byte names it (R33). -/
def takeGradeSetting (named : Bool) (bytes : List Byte) : Option (Option GradeSetting × List Byte) :=
  if named then (gradeSettingArg (bytes.take 3)).map (fun g => (some g, bytes.drop 3)) else some (none, bytes)

/-- A presence byte and the settings of the grades it names, in grade order, with nothing after them (R33). -/
def presenceArgs (bytes : List Byte) : Option (PerGrade (Option GradeSetting)) :=
  match bytes with
  | [] => none
  | presence :: rest =>
    if presence.toNat < 16 then do
      let (loss, rest) ← takeGradeSetting (presence.getLsbD 0) rest
      let (timing, rest) ← takeGradeSetting (presence.getLsbD 1) rest
      let (order, rest) ← takeGradeSetting (presence.getLsbD 2) rest
      let (path, rest) ← takeGradeSetting (presence.getLsbD 3) rest
      if rest.isEmpty then some { loss := loss, timing := timing, order := order, path := path } else none
    else none

/-- The optional grade settings that may follow a definition: none, or a presence byte and what it names (R33, R35). -/
def optionalPresenceArgs (bytes : List Byte) : Option (PerGrade (Option GradeSetting)) :=
  if bytes.isEmpty then some (.all none) else presenceArgs bytes

/-- Installs the settings named and keeps the others (R33, R38, R113). -/
def installSettings (named : PerGrade (Option GradeSetting)) (kept : PerGrade GradeSetting) : PerGrade GradeSetting :=
  { loss := named.loss.getD kept.loss, timing := named.timing.getD kept.timing, order := named.order.getD kept.order,
    path := named.path.getD kept.path }

/-- The arguments of DEFINE-STREAM (R35). -/
def defineArgs (args : List Byte) : Option (Half × Definition × PerGrade (Option GradeSetting)) :=
  let tag := fieldAt args 0 2
  match definitionArgs ((args.drop 2).take 11), optionalPresenceArgs (args.drop 13) with
  | some d, some g => if 1 ≤ tag ∧ tag ≤ 65534 then some (BitVec.ofNat 16 tag, d, g) else none
  | _, _ => none

/-- The arguments of REDEFINE-STREAM (R37). -/
def redefineArgs (args : List Byte) : Option (Nat × Definition × PerGrade (Option GradeSetting)) :=
  match slotArg (fieldAt args 0 2), definitionArgs ((args.drop 2).take 11), optionalPresenceArgs (args.drop 13) with
  | some n, some d, some g => some (n, d, g)
  | _, _, _ => none

/-- The arguments of SET-GRADING (R113). -/
def gradingArgs (args : List Byte) : Option (Nat × PerGrade (Option GradeSetting)) :=
  match slotArg (fieldAt args 0 2), presenceArgs (args.drop 2) with
  | some n, some g => some (n, g)
  | _, _ => none

/-- The tag range, invert flag and category mask of a watch unit, seven bytes, each in its range (R139). -/
structure Matching where
  low : Half
  high : Half
  invert : Bool
  mask : BitVec 9
  deriving DecidableEq, Repr

/-- The range, invert flag and mask of a unit, from their seven bytes (R139). -/
def matchingArg (bytes : List Byte) : Option Matching :=
  let low := fieldAt bytes 0 2
  let high := fieldAt bytes 2 2
  let invert := fieldAt bytes 4 1
  let mask := fieldAt bytes 5 2
  if bytes.length = 7 ∧ 1 ≤ low ∧ low ≤ high ∧ high ≤ 65534 ∧ invert ≤ 1 ∧ 1 ≤ mask ∧ mask < 512 then
    some { low := BitVec.ofNat 16 low, high := BitVec.ofNat 16 high, invert := invert == 1, mask := BitVec.ofNat 9 mask }
  else none

/-- The arguments of ARM-WATCH (R139). -/
structure ArmArgs where
  unit : UnitId
  own : Matching
  preset : Nat
  captureLength : Nat
  partner : Option Matching
  deriving DecidableEq, Repr

/-- The arguments of ARM-WATCH: twelve bytes, or nineteen with the pair flag 1 (R139, check 1). -/
def armArgs (args : List Byte) : Option ArmArgs :=
  let preset := fieldAt args 8 2
  let captureLength := fieldAt args 10 1
  match unitOfNumber (fieldAt args 0 1), matchingArg ((args.drop 1).take 7) with
  | some unit, some own =>
    if 1 ≤ preset ∧ captureLength ≤ 64 then
      if args.length = 12 ∧ fieldAt args 11 1 = 0 then
        some { unit := unit, own := own, preset := preset, captureLength := captureLength, partner := none }
      else if args.length = 19 ∧ fieldAt args 11 1 = 1 ∧ unitIsOdd unit = false then
        (matchingArg (args.drop 12)).map fun m =>
          { unit := unit, own := own, preset := preset, captureLength := captureLength, partner := some m }
      else none
    else none
  | _, _ => none

/-! ### Response formats (R41, R51, R81, R89, R115, R187, R188, R189) -/

/-- A history or lead-in entry, nine bytes (R188). -/
def historyEntryBytes (e : HistoryEntry) : List Byte :=
  leBytes 2 e.seq.toNat ++ leBytes 1 (pathNumber e.path) ++ leBytes 4 e.tick.toNat ++ leBytes 2 e.cats.toNat

/-- The record flags byte (R188). -/
def recordFlags (c : Condition) : Nat :=
  (if c.urgent then 1 else 0) + (if c.subject.isSome then 2 else 0) + (if c.snapshot.isSome then 4 else 0)

/-- The slot and tag of a record, four bytes, 0 when absent (R188). -/
def subjectBytes : Option Subject → List Byte
  | some j => leBytes 2 j.slot ++ leBytes 2 j.tag.toNat
  | none => leBytes 4 0

/-- The snapshot of a record, twelve bytes, 0 when absent (R188). -/
def snapshotBytes : Option Snapshot → List Byte
  | some n => leBytes 4 n.dropped ++ leBytes 4 n.late ++ leBytes 4 n.reordered
  | none => leBytes 12 0

/-- A condition record, 32 bytes and nine for each lead-in entry (R188). -/
def logRecordBytes (r : LogRecord) : List Byte :=
  leBytes 4 r.serial ++ leBytes 4 r.condition.cycle.toNat ++ leBytes 1 (kindCode r.condition.kind)
    ++ leBytes 1 (kindClass r.condition.kind) ++ leBytes 1 (recordFlags r.condition)
    ++ leBytes 1 r.condition.leadIn.length ++ subjectBytes r.condition.subject ++ leBytes 4 r.condition.detail.toNat
    ++ snapshotBytes r.condition.snapshot ++ r.condition.leadIn.flatMap historyEntryBytes

/-- A notice, six bytes (R189). -/
def noticeBytes (n : Notice) : List Byte :=
  leBytes 1 (noticeKindCode n.kind) ++ leBytes 1 (noticeSourceCode n.source) ++ leBytes 4 n.word.toNat

/-- A capture entry, thirteen bytes (R189). -/
def captureEntryBytes (e : CaptureEntry) : List Byte :=
  leBytes 2 e.slot ++ leBytes 2 e.tag.toNat ++ leBytes 2 e.seq.toNat ++ leBytes 1 (pathNumber e.path)
    ++ leBytes 4 e.tick.toNat ++ leBytes 2 e.cats.toNat

/-- A stray list entry, thirteen bytes (R51). -/
def strayBytes (e : Stray) : List Byte :=
  leBytes 2 e.tag.toNat ++ leBytes 2 e.count ++ leBytes 4 e.firstSeen.toNat ++ leBytes 4 e.lastSeen.toNat
    ++ leBytes 1 (pathNumber e.lastPath)

/-- Threshold, step and urgency, one byte each (R41). -/
def settingBytes (g : GradeSetting) : List Byte := leBytes 1 g.threshold ++ leBytes 1 g.step ++ [flagByte g.urgent]

/-- The 26 data bytes of READ-DEFINITION (R41). -/
def definitionBytes (sl : Slot) : List Byte :=
  let d := sl.record.definition
  leBytes 1 (slotStateNumber sl.state) ++ leBytes 2 sl.tag.toNat ++ leBytes 3 d.period ++ leBytes 3 d.lateWindow
    ++ leBytes 2 d.jump ++ [flagByte d.dual] ++ leBytes 2 d.silence ++ (gradeList sl.record.settings).flatMap settingBytes

/-- A tracker, four bytes: present, high mark, stamp (R81). -/
def trackerBytes (t : Tracker) : List Byte :=
  [flagByte t.mark.isSome] ++ leBytes 2 (t.mark.getD 0).toNat ++ [t.stamp]

/-- What READ-WINDOW shows of a record: in DEFINED the window, reference and last accepted cycle read 0, the trackers absent
and the history empty; tracker B of a SINGLE stream reads absent (R81). -/
def shownWindow (sl : Slot) : Record :=
  let r := sl.record
  if sl.state = .defined then
    { r with base := 0, high := 0, acceptedSet := 0, lastCycle := 0, refSeq := 0, refTick := 0, trackerA := .absent,
             trackerB := .absent, history := [] }
  else if r.definition.dual then r
  else { r with trackerB := .absent }

/-- The 64 data bytes of READ-WINDOW (R81). -/
def windowBytes (sl : Slot) : List Byte :=
  let r := shownWindow sl
  leBytes 1 (slotStateNumber sl.state) ++ leBytes 2 r.base.toNat ++ leBytes 2 r.high.toNat ++ leBytes 4 r.acceptedSet.toNat
    ++ leBytes 4 r.lastCycle.toNat ++ leBytes 2 r.refSeq.toNat ++ leBytes 4 r.refTick.toNat
    ++ trackerBytes r.trackerA ++ trackerBytes r.trackerB ++ leBytes 1 r.history.length
    ++ r.history.flatMap historyEntryBytes ++ List.replicate (36 - 9 * r.history.length) 0

/-- The tripped flags byte, LOSS lowest (R187). -/
def trippedByte (g : PerGrade GradeState) : Nat :=
  (if g.loss.tripped then 1 else 0) + (if g.timing.tripped then 2 else 0) + (if g.order.tripped then 4 else 0)
    + (if g.path.tripped then 8 else 0)

/-- The nine values of a sheet: the tallies, or what they have grown by since the port's marks (R89). -/
def sheetValues (r : Record) (p : Port) (sinceMark : Bool) : Nine Nat :=
  if sinceMark then nineMap2 (fun t m => t - m) r.tallies (r.marks.get p) else r.tallies

/-- The first 63 bytes of a tally sheet (R187). -/
def sheetBody (n : Nat) (sl : Slot) (p : Port) (sinceMark : Bool) (gapCount : Nat) (cycle : Word) : List Byte :=
  let r := sl.record
  leBytes 2 n ++ leBytes 1 (slotStateNumber sl.state) ++ leBytes 2 sl.tag.toNat ++ [flagByte sinceMark]
    ++ (nineList (sheetValues r p sinceMark)).flatMap (leBytes 4) ++ leBytes 2 (saturationSet r.tallies).toNat
    ++ (gradeList r.grades).flatMap (fun g => leBytes 1 g.current) ++ leBytes 1 (trippedByte r.grades)
    ++ leBytes 4 (gapCount - r.gapStamp) ++ leBytes 4 (if sl.state = .defined then 0 else r.lastCycle.toNat)
    ++ leBytes 4 cycle.toNat ++ leBytes 2 r.intervalsRated

/-- A tally sheet, closed by its check byte (R89, R187). -/
def sheetBytes (n : Nat) (sl : Slot) (p : Port) (sinceMark : Bool) (gapCount : Nat) (cycle : Word) : List Byte :=
  let body := sheetBody n sl p sinceMark gapCount cycle
  body ++ [checkByte body]

/-- One grade of READ-GRADES, six bytes (R115). -/
def gradeBytes (g : GradeState) (c : GradeSetting) : List Byte :=
  leBytes 1 g.current ++ leBytes 1 g.worst ++ settingBytes c ++ [flagByte g.tripped]

/-- The 35 data bytes of READ-GRADES (R115). -/
def gradesBytes (sl : Slot) : List Byte :=
  let r := sl.record
  leBytes 1 (slotStateNumber sl.state) ++ gradeBytes r.grades.loss r.settings.loss
    ++ gradeBytes r.grades.timing r.settings.timing ++ gradeBytes r.grades.order r.settings.order
    ++ gradeBytes r.grades.path r.settings.path ++ (gradeList r.intervals).flatMap (leBytes 2) ++ leBytes 2 r.intervalsRated

end Sys2Proof.Machine
end

