-- ==== Sys2Proof/Machine/Flags.lean ====
section
/-! DEFINITION. The status sources of a port and its ATTN output (R164, R165). -/

namespace Sys2Proof.Machine

/-- The status byte's five bits: NOTICE_PENDING follows the queue, the others are the latches (R164). -/
def statusBits (l : Latches) (queue : List Notice) : BitVec 5 :=
  BitVec.ofNat 5 ((if queue.isEmpty then 0 else 1) + (if l.noticeOverflow then 2 else 0) + (if l.logOverrun then 4 else 0)
    + (if l.captureDone then 8 else 0) + (if l.deviceAlert then 16 else 0))

/-- Whether any enabled status source is set (R165). -/
def attentionDue (a : Access) (queue : List Notice) : Bool := (statusBits a.latches queue &&& a.enables) != 0

/-- An evaluation of ATTN: in QUIET any enabled source asserts it, in ASSERTED it stays (R165). -/
def evaluateAttn (a : Access) (queue : List Notice) : Access := { a with attn := a.attn || attentionDue a queue }

/-- Whether a latch is set (R164). -/
def latchGet (l : Latches) : Latch → Bool
  | .noticeOverflow => l.noticeOverflow
  | .logOverrun => l.logOverrun
  | .captureDone => l.captureDone
  | .deviceAlert => l.deviceAlert

/-- Sets a latch (R164). -/
def latchSet (l : Latches) : Latch → Latches
  | .noticeOverflow => { l with noticeOverflow := true }
  | .logOverrun => { l with logOverrun := true }
  | .captureDone => { l with captureDone := true }
  | .deviceAlert => { l with deviceAlert := true }

/-- Clears the latches a mask names, in the bit order of R164; bit 0 has no effect (R167). -/
def latchesClear (l : Latches) (mask : Byte) : Latches :=
  { noticeOverflow := l.noticeOverflow && !mask.getLsbD 1, logOverrun := l.logOverrun && !mask.getLsbD 2,
    captureDone := l.captureDone && !mask.getLsbD 3, deviceAlert := l.deviceAlert && !mask.getLsbD 4 }

/-- A status source set event at a port: the latch is set, and ATTN is evaluated when it was not set before (R164, R165). -/
def raiseLatch (a : Access) (queue : List Notice) (l : Latch) : Access :=
  if latchGet a.latches l then a else evaluateAttn { a with latches := latchSet a.latches l } queue

/-- The level of the ATTN output: low when ASSERTED, high when QUIET (R155). -/
def attnLineHigh (a : Access) : Bool := !a.attn

end Sys2Proof.Machine
end

