-- ==== Sys2Proof/Machine/Ops.lean ====
section
/-! DEFINITION. The shared operations: access to slots and ports, handing over appends, notices and status events, the parity
check and the end of an access, the lock check, and the taking of a request by its block. -/

namespace Sys2Proof.Machine

/-! ### Slots (R32, R45) -/

/-- A slot of the table; a number above 511 reads as a FREE slot. -/
def slotAt (t : Table) (n : Nat) : Slot := (t.slots[n]?).getD .free

/-- Replaces a slot of the table. -/
def setSlot (t : Table) (n : Nat) (sl : Slot) : Table := { t with slots := t.slots.setIfInBounds n sl }

/-- Replaces every slot of the table by a function of its number and content. -/
def mapSlots (t : Table) (f : Nat → Slot → Slot) : Table :=
  { t with slots := ⟨(t.slots.toList.mapIdx f).toArray, by simp⟩ }

/-- The slot outside FREE that holds a tag, by the tag map (R32). -/
def slotOfTag (t : Table) (tag : Half) : Option Nat :=
  t.slots.toList.findIdx? (fun sl => sl.state != .free && sl.tag == tag)

/-- The lowest-numbered FREE slot (R35). -/
def lowestFree (t : Table) : Option Nat := t.slots.toList.findIdx? (fun sl => sl.state == .free)

/-- The storage of a slot loses its parity, when `upset` says so (notes/assumptions/5). -/
def disturb (upset : Bool) (sl : Slot) : Slot := { sl with parityGood := sl.parityGood && !upset }

/-- The slot becomes FAULTED in the record and the tag map; the record is frozen (R46, R48). -/
def faultSlot (sl : Slot) : Slot := { sl with state := .faulted }

/-- Whether the tallies of a slot in this state live: DEFINED, TRACKING or STALE (R34). -/
def stateLive : SlotState → Bool
  | .defined | .tracking | .stale => true
  | .free | .faulted => false

/-! ### Conditions (R119 to R123) -/

/-- A condition without slot, tag, snapshot and lead-in, with the urgency of its kind (R120). -/
def plainCondition (cycle : Word) (kind : Kind) (detail : Nat) : Condition :=
  { cycle := cycle, kind := kind, urgent := kindUrgent kind, subject := none, detail := BitVec.ofNat 32 detail,
    snapshot := none, leadIn := [] }

/-- A condition with slot and tag, without snapshot and lead-in (R120). -/
def slotCondition (cycle : Word) (kind : Kind) (n : Nat) (tag : Half) (detail : Nat) : Condition :=
  { plainCondition cycle kind detail with subject := some { slot := n, tag := tag } }

/-- RECORD_FAULT, with the detail code of the access that met the failure (R46). -/
def recordFault (cycle : Word) (n : Nat) (tag : Half) (code : Nat) : Condition := slotCondition cycle .recordFault n tag code

/-- What the read at the end of an access finds: the tallies snapshot and the history (R47, R121). -/
structure StreamView where
  snapshot : Snapshot
  history : List HistoryEntry
  deriving DecidableEq, Repr

/-- The snapshot and history of a record as they stand (R121). -/
def viewOf (r : Record) : StreamView :=
  { snapshot := { dropped := r.tallies.dropped, late := r.tallies.late, reordered := r.tallies.reordered },
    history := r.history }

/-- A STREAM condition that an access makes, before the read at the access's end. -/
structure Draft where
  kind : Kind
  urgent : Bool
  detail : Nat
  deriving DecidableEq, Repr

/-- A draft with the urgency of its kind. -/
def draftOf (kind : Kind) (detail : Nat) : Draft := { kind := kind, urgent := kindUrgent kind, detail := detail }

/-- The condition of a draft, with the snapshot and lead-in of the read, or stripped when the read failed (R47, R121). -/
def viewedCondition (cycle : Word) (n : Nat) (tag : Half) (view : Option StreamView) (d : Draft) : Condition :=
  { cycle := cycle, kind := d.kind, urgent := d.urgent, subject := some { slot := n, tag := tag },
    detail := BitVec.ofNat 32 d.detail, snapshot := view.map (·.snapshot), leadIn := (view.map (·.history)).getD [] }

/-- What the read at the end of an access makes of the slot and the access's drafts. -/
structure AccessEnd where
  slot : Slot
  view : Option StreamView
  conditions : List Condition

/-- The end of an access that reads snapshot and history: if the parity then fails, the slot becomes FAULTED with the access's
effects standing, the drafts are stripped, and RECORD_FAULT follows them with the access's code (R47, R110, R121). -/
def endAccess (cycle : Word) (n : Nat) (sl : Slot) (during : Bool) (code : Nat) (drafts : List Draft) : AccessEnd :=
  let sl := disturb during sl
  if sl.parityGood then
    { slot := sl, view := some (viewOf sl.record),
      conditions := drafts.map (viewedCondition cycle n sl.tag (some (viewOf sl.record))) }
  else
    { slot := faultSlot sl, view := none,
      conditions := drafts.map (viewedCondition cycle n sl.tag none) ++ [recordFault cycle n sl.tag code] }

/-- The records of one access as appends, the last one marked (R123). -/
def accessAppends (src : LogSource) (holds : Option Port) : List Condition → List Append
  | [] => []
  | [c] => [{ source := src, condition := c, last := true, holds := holds }]
  | c :: d :: rest =>
    { source := src, condition := c, last := false, holds := holds } :: accessAppends src holds (d :: rest)

/-- Hands the records of one access to the Condition Log (R123). -/
def hand (s : State) (src : LogSource) (conditions : List Condition) : State :=
  { s with appends := s.appends ++ accessAppends src none conditions }

/-- Hands the records of a command to the log; the port's answer waits until they are stored (notes/assumptions/11). -/
def handHolding (s : State) (src : LogSource) (p : Port) (conditions : List Condition) : State :=
  { s with appends := s.appends ++ accessAppends src (some p) conditions }

/-- A block sends a device notice to a port's queue (R180). -/
def post (s : State) (sender : NoticeSource) (p : Port) (kind : NoticeKind) (word : Nat) : State :=
  { s with posted := s.posted ++
      [{ sender := sender, port := p, notice := { kind := kind, source := none, word := BitVec.ofNat 32 word } }] }

/-- A block sends a status source set event to a port (R164). -/
def signal (s : State) (p : Port) (l : Latch) : State :=
  { s with statusEvents := s.statusEvents ++ [{ port := p, latch := l }] }

/-- The cycle count as it stands (R20). -/
def cycleNow (s : State) : Word := s.monitor.cycleCount

/-- Replaces a slot of the state's table. -/
def putSlot (s : State) (n : Nat) (sl : Slot) : State := { s with table := setSlot s.table n sl }

/-- A parity failure at the start of an access: the slot becomes FAULTED, and the Stream Table hands RECORD_FAULT over (R46,
notes/assumptions/25). -/
def failAccess (s : State) (cycle : Word) (n : Nat) (sl : Slot) (code : Nat) : State :=
  hand (putSlot s n (faultSlot sl)) .streamTable [recordFault cycle n sl.tag code]

/-! ### Ports (R157 to R165) -/

/-- Replaces one port. -/
def putPort (s : State) (p : Port) (a : Access) : State := { s with ports := s.ports.set p a }

/-- Places a notice at the back of a queue with room; a queue that was empty raises NOTICE_PENDING (R180). -/
def placeNotice (s : State) (p : Port) (n : Notice) : State :=
  let queue := s.queues.get p ++ [n]
  let a := s.ports.get p
  putPort { s with queues := s.queues.set p queue } p (if (s.queues.get p).isEmpty then evaluateAttn a queue else a)

/-- Whether a queue has room for a notice (R180). -/
def queueHasRoom (s : State) (p : Port) : Bool := decide ((s.queues.get p).length < Config.queueNotices)

/-- The arguments of the request in hand at a port, when it is the given command and its block has not taken it yet (R157). -/
def requestArgs (a : Access) (c : Command) : Option (List Byte) :=
  match a.state, a.request with
  | .executing, some r => if r.taken = false ∧ r.code = commandCode c then some r.args else none
  | _, _ => none

/-- The request in hand has been taken by its block (R157). -/
def markTaken (a : Access) : Access := { a with request := a.request.map (fun r => { r with taken := true }) }

/-- The block's answer waits to be given to the port (R157). -/
def giveAnswer (s : State) (p : Port) (ans : Answer) : State :=
  putPort s p { s.ports.get p with answer := some ans }

/-- What a block makes of a request: the state after its effects, and the answer unless it is given later. -/
abbrev Served := State × Option Answer

/-- An answer that follows no effect. -/
def refuse (s : State) (code : Response) : Served := (s, some (.bare code))

/-- An OK answer with no data, after the effects. -/
def done (s : State) : Served := (s, some (.bare .ok))

/-- An OK answer with data, after the effects. -/
def doneWith (s : State) (data : List Byte) : Served := (s, some (.okData data))

/-- The owning block takes the request in hand of a port, whole, as one of its events (R157). With no such request in hand
nothing takes place (notes/assumptions/2). -/
def serve (c : Command) (p : Port) (f : List Byte → State → Served) (s : State) : State :=
  match requestArgs (s.ports.get p) c with
  | none => s
  | some args =>
    let r := f args (putPort s p (markTaken (s.ports.get p)))
    match r.2 with
    | none => r.1
    | some ans => giveAnswer r.1 p ans

/-- Whether a port holds the tally lock (R172). -/
def holdsLock (s : State) (p : Port) : Bool :=
  match s.lock.holding with
  | some h => h.port == p
  | none => false

/-- The lock check of a command that needs the tally lock: one event at the Lock Arbiter, when the block takes the command
(R177). -/
def underLock (p : Port) (f : List Byte → State → Served) (args : List Byte) (s : State) : Served :=
  if holdsLock s p then f args s else refuse s .lockRequired

/-- A command that takes no arguments: argument bytes are answered BAD_VALUE. -/
def noArgs (f : State → Served) (args : List Byte) (s : State) : Served :=
  if args.isEmpty then f s else refuse s .badValue

/-- An event of a block, which takes no event in RESET and start-up INIT (R15, R17, R53, R162). -/
def whenRunning (f : State → State) (s : State) : State := if s.startup = .running then f s else s

/-- A command that reads or changes the record of the slot it names: FREE is answered NO_SUCH_STREAM, FAULTED or a failing
parity check FAULTED, with RECORD_FAULT detail 6 for a new fault (R34, R46). -/
def onRecord (n : Nat) (upset : Bool) (f : Slot → State → Served) (s : State) : Served :=
  let sl := disturb upset (slotAt s.table n)
  let s := putSlot s n sl
  if sl.state = .free then refuse s .noSuchStream
  else if sl.state = .faulted then refuse s .faulted
  else if sl.parityGood then f sl s
  else refuse (failAccess s (cycleNow s) n sl 6) .faulted

end Sys2Proof.Machine
end

