-- ==== Sys2Proof/Machine/Intake.lean ====
section
/-! DEFINITION. The Observation Link and the Intake: DESCRIPTOR_RUN, LINK_APPLY, READ_INTAKE, SOFT_RESET_INTAKE
(01_the_observation_link_and_intake.md). -/

namespace Sys2Proof.Machine

/-- Replaces the Intake's counters. -/
def setCounters (i : Intake) (c : IntakeCounters) : Intake := { i with counters := c }

/-! ### Arrival (R1, R3, R4, R6, R7, R8) -/

/-- A run counts in RECEIVED and MALFORMED at arrival: a runt, an overlong run, or a descriptor failing tests 1, 3, 4, 5 or 6
(R1, R3, R13). -/
def countMalformed (i : Intake) : Intake :=
  setCounters i { i.counters with received := satAdd max32 i.counters.received 1,
                                  malformedArrival := satAdd max32 i.counters.malformedArrival 1 }

/-- A run counts in RECEIVED and BAD_FRAMES (R3). -/
def countBadFrame (i : Intake) : Intake :=
  setCounters i { i.counters with received := satAdd max32 i.counters.received 1,
                                  badFrames := satAdd max32 i.counters.badFrames 1 }

/-- A good descriptor finds the queue full: it is lost, and opens or extends the loss episode (R7). -/
def loseDescriptor (i : Intake) : Intake :=
  { setCounters i { i.counters with
      received := satAdd max32 i.counters.received 1, lost := satAdd max32 i.counters.lost 1,
      gapCount := if i.episode.isSome then i.counters.gapCount else satAdd max32 i.counters.gapCount 1 } with
    episode := some (match i.episode with
      | some n => satAdd max32 n 1
      | none => 1) }

/-- A good descriptor joins the back of the queue; an open episode closes, and a fill of 224 spends an armed report (R4, R6,
R8). -/
def admitDescriptor (i : Intake) (d : Descriptor) : Intake :=
  { setCounters i { i.counters with
      received := satAdd max32 i.counters.received 1, admitted := satAdd max32 i.counters.admitted 1 } with
    queue := i.queue ++ [d], episode := none,
    highMark := if i.queue.length + 1 = Config.highMark then .spent else i.highMark }

/-- The records of an admission: INGEST_LOST with the count of the episode it closes, and INGEST_HIGH (R6, R8; their order:
notes/assumptions/22). -/
def admissionRecords (i : Intake) (cycle : Word) : List Condition :=
  (match i.episode with
    | some n => [plainCondition cycle .ingestLost n]
    | none => [])
  ++ (if i.queue.length + 1 = Config.highMark ∧ i.highMark = .armed then
        [plainCondition cycle .ingestHigh Config.highMark] else [])

/-- A good descriptor is admitted when the queue holds fewer than 256, and lost when it holds 256 (R4, R7). -/
def offerDescriptor (d : Descriptor) (s : State) : State :=
  if s.intake.queue.length < Config.ingestDescriptors then
    hand { s with intake := admitDescriptor s.intake d } .intake (admissionRecords s.intake (cycleNow s))
  else { s with intake := loseDescriptor s.intake }

/-- The fall of the valid strobe delimits a run; it is counted, checked, and queued or discarded (R1, R3). A run that began
before INIT ended is ignored to its end (R15). -/
def takeRun (bytes : List Byte) (s : State) : State :=
  if s.intake.staleRun then { s with intake := { s.intake with staleRun := false } }
  else if bytes.length = 16 then
    match checkDescriptor bytes with
    | .malformed => { s with intake := countMalformed s.intake }
    | .badFrame => { s with intake := countBadFrame s.intake }
    | .good d => offerDescriptor d s
  else { s with intake := countMalformed s.intake }

/-- DESCRIPTOR_RUN (R1). -/
def execDescriptorRun (bytes : List Byte) (s : State) : Host.Outcome State Fault Refusal := .next (whenRunning (takeRun bytes) s)

/-! ### Removal and link changes (R5, R6, R9 to R11) -/

/-- Removes the descriptor at the front: a fill that falls to 128 arms a spent report (R6). -/
def removeFront (i : Intake) (rest : List Descriptor) : Intake :=
  { i with queue := rest, highMark := if rest.length = Config.rearmMark then .armed else i.highMark }

/-- A path at a report of its ring port: going from UP to DOWN advances the epoch (R9, R10, R11). -/
def pathAfterLink (path : RingPath) (up : Bool) : RingPath :=
  if path.up && !up then { up := false, epoch := path.epoch + 1 } else { path with up := up }

/-- The path of a ring port: A for port 1, B for port 2 (R9). -/
def pathOfPort (i : Intake) : RingPort → RingPath
  | .port1 => i.pathA
  | .port2 => i.pathB

/-- Replaces the path of a ring port. -/
def setPathOfPort (i : Intake) : RingPort → RingPath → Intake
  | .port1, path => { i with pathA := path }
  | .port2, path => { i with pathB := path }

/-- The record of a link change: PATH_DOWN or PATH_UP when the path's state changes, with the ring port plus 256 times the
epoch; none when it does not (R10, R11). -/
def linkRecords (cycle : Word) (port : RingPort) (before : RingPath) (up : Bool) : List Condition :=
  if before.up = up then []
  else [plainCondition cycle (if up then .pathUp else .pathDown)
          (ringPortNumber port + 256 * (pathAfterLink before up).epoch.toNat)]

/-- The Intake applies the LINK descriptor at the front, while the Classifier holds no frame (R5, R10, R11). -/
def applyLink (s : State) : State :=
  match s.classifier, s.intake.queue with
  | none, .link port up :: rest =>
    let before := pathOfPort s.intake port
    hand { s with intake := setPathOfPort (removeFront s.intake rest) port (pathAfterLink before up) } .intake
      (linkRecords (cycleNow s) port before up)
  | _, _ => s

/-- LINK_APPLY (R9). -/
def execLinkApply (s : State) : Host.Outcome State Fault Refusal := .next (whenRunning applyLink s)

/-! ### READ-INTAKE and soft reset (R14, R16) -/

/-- A path in READ-INTAKE: state and epoch, one byte each; the state's code is a free value (R14, notes/assumptions/24). -/
def pathBytes (path : RingPath) : List Byte := [Config.pathStateByte path.up, path.epoch]

/-- The nine counters of READ-INTAKE, four bytes each (R14). -/
def counterBytes (c : IntakeCounters) : List Byte :=
  leBytes 4 c.received ++ leBytes 4 c.admitted ++ leBytes 4 c.lost ++ leBytes 4 c.badFrames ++ leBytes 4 c.malformedArrival
    ++ leBytes 4 c.malformedClass ++ leBytes 4 c.faultedDiscards ++ leBytes 4 c.strayEvictions ++ leBytes 4 c.gapCount

/-- The 48 data bytes of READ-INTAKE; the codes of the report and the episode are free values (R14, notes/assumptions/24). -/
def intakeBytes (i : Intake) : List Byte :=
  counterBytes i.counters ++ leBytes 2 i.queue.length ++ [Config.highMarkByte (i.highMark == .spent), Config.episodeByte i.episode.isSome]
    ++ leBytes 4 (i.episode.getD 0) ++ pathBytes i.pathA ++ pathBytes i.pathB

/-- READ-INTAKE's snapshot. A count of the last frame that it shows has reached the Intake (notes/assumptions/19). -/
def readIntake (s : State) : Served :=
  doneWith { s with intake := { s.intake with frameCount := none } } (intakeBytes s.intake)

/-- READ_INTAKE (R14). -/
def execReadIntake (p : Port) (s : State) : Host.Outcome State Fault Refusal := .next (serve .readIntake p (noArgs readIntake) s)

/-- The counters after a soft reset: 0, but for a count of the last frame that comes after the zeroing (R16, R55). -/
def softResetCounters (late : Bool) (count : Option FrameCount) : IntakeCounters :=
  { Intake.reset.counters with
    faultedDiscards := if late && count == some .faultedDiscard then 1 else 0,
    malformedClass := if late && count == some .malformedClass then 1 else 0 }

/-- The Intake's part of soft reset: the queue empties, the episode is abandoned, the counters return to 0; the paths and the
run in progress stay (R16). -/
def softResetIntake (late : Bool) (i : Intake) : Intake :=
  { Intake.reset with pathA := i.pathA, pathB := i.pathB, staleRun := i.staleRun,
                      counters := softResetCounters late i.frameCount }

/-- SOFT_RESET_INTAKE (R16, R170). -/
def execSoftResetIntake (issuer : Port) (late : Bool) (s : State) : Host.Outcome State Fault Refusal :=
  .next (match s.softResets.get issuer with
    | some parts =>
      if parts.intake then s
      else { s with intake := softResetIntake late s.intake,
                    softResets := s.softResets.set issuer (some { parts with intake := true }) }
    | none => s)

end Sys2Proof.Machine
end

