-- ==== Sys2Proof/Machine/Table.lean ====
section
/-! DEFINITION. The Stream Table: definitions, the tag map, the silence check, the stray list and the soft-reset visit
(03_the_stream_table.md). -/

namespace Sys2Proof.Machine

/-- The gap count held by the Intake (R7). -/
def gapCountNow (s : State) : Nat := s.intake.counters.gapCount

/-! ### DEFINE, REDEFINE, RETIRE (R35 to R39) -/

/-- The stray list without the entry of a tag; the entries behind it close up (R36, R50). -/
def dropStray (strays : List Stray) (tag : Half) : List Stray := strays.filter (fun e => e.tag != tag)

/-- The slot that DEFINE-STREAM writes (R36). -/
def definedSlot (tag : Half) (d : Definition) (named : PerGrade (Option GradeSetting)) (gapCount : Nat) : Slot :=
  { state := .defined, tag := tag, record := .fresh d (installSettings named (.all .default)) gapCount, parityGood := true }

/-- The detail word of STREAM_DEFINED: the issuing port, plus 256 when DUAL (R36). -/
def definedDetail (p : Port) (d : Definition) : Nat := portNumber p + if d.dual then 256 else 0

/-- DEFINE-STREAM taken: the slot, the tag map, the stray list and STREAM_DEFINED, as one action (R36). -/
def installStream (p : Port) (n : Nat) (tag : Half) (d : Definition) (named : PerGrade (Option GradeSetting)) (s : State) :
    Served :=
  let table := setSlot s.table n (definedSlot tag d named (gapCountNow s))
  doneWith
    (handHolding { s with table := { table with strays := dropStray s.table.strays tag } } .streamTable p
      [slotCondition (cycleNow s) .streamDefined n tag (definedDetail p d)])
    (leBytes 2 n)

/-- DEFINE-STREAM from the holder: arguments, tag in use, table full, in that order (R35). -/
def defineStream (p : Port) (args : List Byte) (s : State) : Served :=
  match defineArgs args with
  | none => refuse s .badValue
  | some (tag, d, named) =>
    if (slotOfTag s.table tag).isSome then refuse s .tagInUse
    else match lowestFree s.table with
      | none => refuse s .tableFull
      | some n => installStream p n tag d named s

/-- DEFINE_STREAM (R35). -/
def execDefineStream (p : Port) (s : State) : Host.Outcome State Fault Refusal :=
  .next (serve .defineStream p (underLock p (defineStream p)) s)

/-- The record after REDEFINE-STREAM: definition and named settings installed, window, trackers, reference, last accepted cycle
and history cleared, the accounts kept (R38). -/
def redefinedRecord (d : Definition) (named : PerGrade (Option GradeSetting)) (r : Record) : Record :=
  { r with definition := d, settings := installSettings named r.settings, base := 0, high := 0, acceptedSet := 0,
           trackerA := .absent, trackerB := .absent, refSeq := 0, refTick := 0, lastCycle := 0, history := [] }

/-- REDEFINE-STREAM on a slot that has passed its checks; a change of the paths is refused (R37, R38). -/
def redefineSlot (n : Nat) (d : Definition) (named : PerGrade (Option GradeSetting)) (sl : Slot) (s : State) : Served :=
  if sl.record.definition.dual = d.dual then
    done (putSlot s n { sl with state := .defined, record := redefinedRecord d named sl.record })
  else refuse s .badValue

/-- REDEFINE-STREAM from the holder (R37). -/
def redefineStream (upset : Bool) (args : List Byte) (s : State) : Served :=
  match redefineArgs args with
  | none => refuse s .badValue
  | some (n, d, named) => onRecord n upset (redefineSlot n d named) s

/-- REDEFINE_STREAM (R37). -/
def execRedefineStream (p : Port) (upset : Bool) (s : State) : Host.Outcome State Fault Refusal :=
  .next (serve .redefineStream p (underLock p (redefineStream upset)) s)

/-- RETIRE-STREAM from the holder: the slot becomes FREE and clean, in any state, with no parity check, and STREAM_RETIRED names
the port and the former state (R39). -/
def retireStream (p : Port) (args : List Byte) (s : State) : Served :=
  match oneSlotArg args with
  | none => refuse s .badValue
  | some n =>
    let sl := slotAt s.table n
    if sl.state = .free then refuse s .noSuchStream
    else done (handHolding (putSlot s n .free) .streamTable p
      [slotCondition (cycleNow s) .streamRetired n sl.tag (portNumber p + 256 * slotStateNumber sl.state)])

/-- RETIRE_STREAM (R39). -/
def execRetireStream (p : Port) (s : State) : Host.Outcome State Fault Refusal :=
  .next (serve .retireStream p (underLock p (retireStream p)) s)

/-! ### Reading the table (R41, R42, R51, R52) -/

/-- READ-DEFINITION (R41). -/
def readDefinition (upset : Bool) (args : List Byte) (s : State) : Served :=
  match oneSlotArg args with
  | none => refuse s .badValue
  | some n => onRecord n upset (fun sl s => doneWith s (definitionBytes sl)) s

/-- READ_DEFINITION (R41). -/
def execReadDefinition (p : Port) (upset : Bool) (s : State) : Host.Outcome State Fault Refusal :=
  .next (serve .readDefinition p (readDefinition upset) s)

/-- READ-WINDOW (R81). -/
def readWindow (upset : Bool) (args : List Byte) (s : State) : Served :=
  match oneSlotArg args with
  | none => refuse s .badValue
  | some n => onRecord n upset (fun sl s => doneWith s (windowBytes sl)) s

/-- READ_WINDOW (R81). -/
def execReadWindow (p : Port) (upset : Bool) (s : State) : Host.Outcome State Fault Refusal :=
  .next (serve .readWindow p (readWindow upset) s)

/-- The numbers of the slots outside FREE, from a first slot on, in ascending order (R42). -/
def listedSlots (t : Table) (first : Nat) : List Nat :=
  (List.range 512).filter (fun n => decide (first ≤ n) && (slotAt t n).state != .free)

/-- An entry of LIST-STREAMS, five bytes (R42). -/
def listEntryBytes (t : Table) (n : Nat) : List Byte :=
  leBytes 2 n ++ leBytes 1 (slotStateNumber (slotAt t n).state) ++ leBytes 2 (slotAt t n).tag.toNat

/-- The resume slot: one above the last slot returned when more slots outside FREE lie beyond it, else 512 (R42). -/
def resumeSlot (listed : List Nat) (limit : Nat) : Nat :=
  if limit < listed.length then ((listed.take limit).getLast?.map (· + 1)).getD 512 else 512

/-- LIST-STREAMS (R42). -/
def listStreams (args : List Byte) (s : State) : Served :=
  let first := fieldAt args 0 2
  let limit := fieldAt args 2 1
  if args.length = 3 ∧ first ≤ 511 ∧ 1 ≤ limit ∧ limit ≤ 12 then
    let listed := listedSlots s.table first
    doneWith s (leBytes 1 (listed.take limit).length ++ leBytes 2 (resumeSlot listed limit)
      ++ (listed.take limit).flatMap (listEntryBytes s.table))
  else refuse s .badValue

/-- LIST_STREAMS (R42). -/
def execListStreams (p : Port) (s : State) : Host.Outcome State Fault Refusal := .next (serve .listStreams p listStreams s)

/-- READ-STRAYS (R51). -/
def readStrays (args : List Byte) (s : State) : Served :=
  let first := fieldAt args 0 1
  let limit := fieldAt args 1 1
  if args.length = 2 ∧ first ≤ 15 ∧ 1 ≤ limit ∧ limit ≤ 4 then
    let entries := (s.table.strays.drop first).take limit
    doneWith s (leBytes 1 s.table.strays.length ++ leBytes 1 entries.length ++ entries.flatMap strayBytes)
  else refuse s .badValue

/-- READ_STRAYS (R51). -/
def execReadStrays (p : Port) (s : State) : Host.Outcome State Fault Refusal := .next (serve .readStrays p readStrays s)

/-- CLEAR-STRAYS from the holder (R52). -/
def clearStrays (s : State) : Served := done { s with table := { s.table with strays := [] } }

/-- CLEAR_STRAYS (R52). -/
def execClearStrays (p : Port) (s : State) : Host.Outcome State Fault Refusal :=
  .next (serve .clearStrays p (underLock p (noArgs clearStrays)) s)

/-! ### The silence check (R43) -/

/-- The cycles elapsed since the last accepted cycle: 0 when that lies after the carried count (R43). -/
def cyclesElapsed (carried last : Word) : Nat := if (carried - last).toInt < 0 then 0 else (carried - last).toNat

/-- The walk moves to the next slot; after slot 511 it is finished and the next cycle event's walk begins (R43). -/
def advanceWalk (w : SilenceWalk) : SilenceWalk :=
  if w.position < 511 then { w with position := w.position + 1 } else { events := w.events.drop 1, position := 0 }

/-- The check of one TRACKING slot that has passed its parity check, for the cycle event that carries `count` (R43, R47). -/
def checkSilence (n : Nat) (count : Word) (during : Bool) (sl : Slot) (s : State) : State :=
  let elapsed := cyclesElapsed count sl.record.lastCycle
  if sl.record.definition.silence ≤ elapsed then
    let e := endAccess count n { sl with state := .stale } during 2 [draftOf .streamSilent elapsed]
    hand (putSlot s n e.slot) .streamTable e.conditions
  else putSlot s n (disturb during sl)

/-- The walk reaches a slot: it checks the slot when it is TRACKING, and skips it in any other state (R34, R43). -/
def visitSilence (n : Nat) (count : Word) (u : Upset) (s : State) : State :=
  let sl := disturb u.before (slotAt s.table n)
  let s := putSlot s n sl
  if sl.state ≠ .tracking then s
  else if sl.parityGood then checkSilence n count u.during sl s
  else failAccess s count n sl 2

/-- One step of the silence walk of the oldest cycle event not yet walked (R43, notes/assumptions/18). -/
def stepSilence (u : Upset) (s : State) : State :=
  match s.table.silence.events with
  | [] => s
  | count :: _ =>
    let t := visitSilence s.table.silence.position count u s
    { t with table := { t.table with silence := advanceWalk s.table.silence } }

/-- SILENCE_CHECK (R43). -/
def execSilenceCheck (u : Upset) (s : State) : Host.Outcome State Fault Refusal := .next (whenRunning (stepSilence u) s)

/-! ### Strays (R49) -/

/-- The entry of a tag already listed, moved to the front (R49). -/
def refreshStray (e : Stray) (cycle : Word) (path : PathCode) : Stray :=
  { e with count := satAdd max16 e.count 1, lastSeen := cycle, lastPath := path }

/-- A new entry (R49). -/
def newStray (tag : Half) (cycle : Word) (path : PathCode) : Stray :=
  { tag := tag, count := 1, firstSeen := cycle, lastSeen := cycle, lastPath := path }

/-- The stray list after a descriptor whose tag no slot holds (R49). -/
def straysAfter (strays : List Stray) (tag : Half) (cycle : Word) (path : PathCode) : List Stray :=
  match strays.find? (fun e => e.tag == tag) with
  | some e => refreshStray e cycle path :: dropStray strays tag
  | none => newStray tag cycle path :: strays.take (Config.strayEntries - 1)

/-- Whether a stray's tag is listed (R49). -/
def strayListed (strays : List Stray) (tag : Half) : Bool := strays.any (fun e => e.tag == tag)

/-! ### The soft-reset visit (R54, R103, R117) -/

/-- A record after the soft-reset visit: definition and settings kept, everything else as at definition with gap stamp 0 (R54,
R103, R117). -/
def softResetRecord (r : Record) : Record := .fresh r.definition r.settings 0

/-- A slot after the soft-reset visit, its parity checked: a failing record becomes FAULTED and is left as found; FREE and
FAULTED slots are left as they are (R54). -/
def softResetSlot (sl : Slot) : Slot :=
  if stateLive sl.state then
    if sl.parityGood then { sl with state := .defined, record := softResetRecord sl.record } else faultSlot sl
  else sl

/-- Whether the soft-reset visit finds a new fault in a slot (R54). -/
def softResetFaults (sl : Slot) : Bool := stateLive sl.state && !sl.parityGood

/-- The RECORD_FAULT of a slot whose record fails at the soft-reset visit, detail 7 (R46, R54). -/
def softResetFault (cycle : Word) (n : Nat) (sl : Slot) : List Condition :=
  if softResetFaults sl then [recordFault cycle n sl.tag 7] else []

/-- The slots as the soft-reset visit finds them. -/
def upsetSlots (t : Table) (upsets : List Nat) : Table := mapSlots t (fun n sl => disturb (upsets.contains n) sl)

/-- The RECORD_FAULT records of the visit, each of an access of its own (R54); that they come in ascending slot order is the
model's choice (notes/assumptions/27). -/
def visitFaults (cycle : Word) (t : Table) : List Append :=
  (List.range 512).flatMap (fun n => accessAppends .streamTable none (softResetFault cycle n (slotAt t n)))

/-- The Stream Table's visit at soft reset: every slot, and the stray list (R54). Its records carry the cycle count at the visit
(notes/assumptions/28). -/
def visitTable (upsets : List Nat) (s : State) : State :=
  let found := upsetSlots s.table upsets
  { s with table := { mapSlots found (fun _ sl => softResetSlot sl) with strays := [] },
           appends := s.appends ++ visitFaults (cycleNow s) found }

/-- SOFT_RESET_VISIT: the third stage of a soft reset, after the log's part and after the taking of a frame that the Classifier
holds; it is then answered OK (R54, R55, R170). -/
def execSoftResetVisit (issuer : Port) (upsets : List Nat) (s : State) : Host.Outcome State Fault Refusal :=
  .next (match s.softResets.get issuer with
    | some parts =>
      if parts.log && s.classifier.isNone then
        giveAnswer { visitTable upsets s with softResets := s.softResets.set issuer none } issuer (.bare .ok)
      else s
    | none => s)

end Sys2Proof.Machine
end

