-- ==== Sys2Proof/Machine/Classifier.lean ====
section
/-! DEFINITION. The Classifier: FRAME_TAKE (04_sequence_window_and_frame_classification.md). -/

namespace Sys2Proof.Machine

/-! ### Path trackers (R60 to R63) -/

/-- The tracker of a frame's path: the one tracker of a SINGLE stream whatever the path (R60). -/
def trackerFor (r : Record) (path : PathCode) : Tracker :=
  if r.definition.dual && path == .b then r.trackerB else r.trackerA

/-- Replaces the tracker of a frame's path. -/
def setTrackerFor (r : Record) (path : PathCode) (t : Tracker) : Record :=
  if r.definition.dual && path == .b then { r with trackerB := t } else { r with trackerA := t }

/-- The stamp a tracker takes: the current epoch of the path; held at 0 in a SINGLE stream (R60). -/
def stampFor (r : Record) (epoch : Byte) : Byte := if r.definition.dual then epoch else 0

/-- The misses a frame counts on its path: the sequences skipped since the path's last copy, 1..J of them, when the stamp
equals the current epoch; none in a SINGLE stream (R61, R63). -/
def missesOf (r : Record) (path : PathCode) (s : Half) (epoch : Byte) : Nat :=
  let t := trackerFor r path
  match t.mark with
  | none => 0
  | some high =>
    let gap := seqDiff s high - 1
    if r.definition.dual && t.stamp == epoch && decide (1 ≤ gap) && decide (gap ≤ r.definition.jump) then gap.toNat else 0

/-- Whether a frame is out of order on its own path: the high mark is present and the sequence lies before it (R62; exactly
half the sequence space counts as before, R64, notes/assumptions/14). -/
def outOfOrder (r : Record) (path : PathCode) (s : Half) : Bool :=
  match (trackerFor r path).mark with
  | none => false
  | some high => decide (seqDiff s high < 0)

/-- The high mark after a frame: the sequence when it was absent or the sequence is after it (R62). -/
def markAfter (mark : Option Half) (s : Half) : Half :=
  match mark with
  | none => s
  | some high => if 0 < seqDiff s high then s else high

/-- Path tracking's change of the record (R61, R62). -/
def trackPath (r : Record) (path : PathCode) (s : Half) (epoch : Byte) : Record :=
  setTrackerFor r path { mark := some (markAfter (trackerFor r path).mark s), stamp := stampFor r epoch }

/-! ### The window (R65 to R72) -/

/-- Whether a sequence lies within B..B+31 (R65). -/
def withinWindow (r : Record) (s : Half) : Bool := decide ((s - r.base).toNat < 32)

/-- Whether a sequence of the window is in the accepted set (R65). -/
def inAcceptedSet (r : Record) (s : Half) : Bool := withinWindow r s && r.acceptedSet.getLsbD (s - r.base).toNat

/-- The cases of a frame against the window (R65). -/
inductive WindowCase where
  | repeated | newAfter | newBefore | slide | sequenceBreak | straggler
  deriving DecidableEq, Repr

/-- The case in which a sequence falls (R65). -/
def windowCase (r : Record) (s : Half) : WindowCase :=
  if withinWindow r s then
    if inAcceptedSet r s then .repeated else if 0 < seqDiff s r.high then .newAfter else .newBefore
  else if 0 < seqDiff s r.high then
    if seqDiff s r.high ≤ r.definition.jump then .slide else .sequenceBreak
  else if (r.base - s).toNat ≤ r.definition.jump then .straggler else .sequenceBreak

/-- The bit of a sequence in the accepted set. -/
def sequenceBit (base s : Half) : BitVec 32 := 1#32 <<< (s - base).toNat

/-- How far a slide moves the base: B' − B mod 65536, with B' = S − 31 (R69). -/
def slideDistance (r : Record) (s : Half) : Nat := (s - 31 - r.base).toNat

/-- How many of the first `n` sequences of the window are accepted. -/
def acceptedBelow (acceptedSet : BitVec 32) (n : Nat) : Nat :=
  (List.range 32).countP (fun i => decide (i < n) && acceptedSet.getLsbD i)

/-- The sequences that a slide carries out of the window unaccepted (R69). -/
def slideDrops (r : Record) (s : Half) : Nat := slideDistance r s - acceptedBelow r.acceptedSet (slideDistance r s)

/-- The window after a slide: base S − 31, S accepted at its head, the members from B' upward kept (R69, R70). -/
def slideWindow (r : Record) (s : Half) : Record :=
  { r with base := s - 31, high := s, acceptedSet := (r.acceptedSet >>> slideDistance r s) ||| (1#32 <<< 31) }

/-- A sequence within the window is accepted; H moves to it when it is after H (R67, R68). -/
def acceptWithin (r : Record) (s : Half) (isAfter : Bool) : Record :=
  { r with acceptedSet := r.acceptedSet ||| sequenceBit r.base s, high := if isAfter then s else r.high }

/-- The window and the reference start from one frame: B and H are S, S alone is accepted (R59, R72). -/
def startWindow (r : Record) (f : Frame) : Record :=
  { r with base := f.seq, high := f.seq, acceptedSet := 1#32, refSeq := f.seq, refTick := f.tick }

/-- The tracker of the frame's path starts from it, stamped with the current epoch (R59, R72). -/
def startTracker (r : Record) (f : Frame) (epoch : Byte) : Record :=
  setTrackerFor r f.path { mark := some f.seq, stamp := stampFor r epoch }

/-- A sequence break's change of the record: a new start, the other tracker's high mark absent (R72). -/
def breakRecord (r : Record) (f : Frame) (epoch : Byte) : Record :=
  startTracker { startWindow r f with trackerA := .absent, trackerB := .absent } f epoch

/-! ### Lateness (R73 to R75) -/

/-- The lateness of a frame against the reference, in signed ticks (R74). -/
def lateness (r : Record) (f : Frame) : Int :=
  (f.tick - (r.refTick + BitVec.ofInt 32 (seqDiff f.seq r.refSeq * r.definition.period))).toInt

/-- Whether a sequence lies within the reference's reach: at most J from ref_seq in either direction (R75). -/
def withinReach (r : Record) (s : Half) : Bool :=
  decide (seqDiff s r.refSeq ≤ r.definition.jump) && decide (-(r.definition.jump : Int) ≤ seqDiff s r.refSeq)

/-- Whether a newly accepted frame is LATE (R74, R75). -/
def isLate (r : Record) (f : Frame) : Bool := withinReach r f.seq && decide ((r.definition.lateWindow : Int) < lateness r f)

/-- The reference after the lateness check: the frame, unless it is LATE (R74, R75). -/
def anchor (r : Record) (f : Frame) : Record :=
  if isLate r f then r else { r with refSeq := f.seq, refTick := f.tick }

/-! ### Classification (R57 to R59, R66 to R72, R76 to R79) -/

/-- What the window makes of a frame: the record, the increments less the misses, and whether the frame broke the sequence. -/
structure Judged where
  record : Record
  incs : Nine Nat
  broke : Bool

/-- One increment for true. -/
def one (b : Bool) : Nat := if b then 1 else 0

/-- The window's judgement of a tracked frame, with the lateness check of a newly accepted one. `r` is the record after path
tracking, `ooo` path tracking's answer (R65 to R75). -/
def judgeWindow (r : Record) (f : Frame) (epoch : Byte) (ooo : Bool) : Judged :=
  let zero : Nine Nat := .all 0
  match windowCase r f.seq with
  | .repeated => { record := r, incs := { zero with duplicate := 1 }, broke := false }
  | .newAfter =>
    { record := anchor (acceptWithin r f.seq true) f, incs := { zero with accepted := 1, late := one (isLate r f) },
      broke := false }
  | .newBefore =>
    { record := anchor (acceptWithin r f.seq false) f,
      incs := { zero with accepted := 1, late := one (isLate r f), reordered := one ooo,
                          rescued := one (r.definition.dual && !ooo) },
      broke := false }
  | .slide =>
    { record := anchor (slideWindow r f.seq) f,
      incs := { zero with accepted := 1, late := one (isLate r f), dropped := slideDrops r f.seq }, broke := false }
  | .straggler => { record := r, incs := { zero with straggler := 1 }, broke := false }
  | .sequenceBreak => { record := breakRecord r f epoch, incs := { zero with accepted := 1 }, broke := true }

/-- The misses of a DUAL stream's frame as increments of its path's tally (R57, R61). -/
def addMisses (incs : Nine Nat) (path : PathCode) (k : Nat) : Nine Nat :=
  match path with
  | .a => { incs with missedA := k }
  | .b => { incs with missedB := k }
  | .none => incs

/-- A frame classified: the slot's state and record before the work after classification, the nine increments, and the
frame's own conditions less STREAM_RESUMED. -/
structure Classified where
  record : Record
  incs : Nine Nat
  drafts : List Draft

/-- The acquisition of a DEFINED stream (R59). -/
def acquire (r : Record) (f : Frame) (epoch : Byte) : Classified :=
  { record := startTracker (startWindow r f) f epoch, incs := { (Nine.all 0 : Nine Nat) with accepted := 1 },
    drafts := [draftOf .streamAcquired (f.seq.toNat + 65536 * pathNumber f.path)] }

/-- The classification of a frame of a TRACKING or STALE stream: path tracking, then the window and lateness (R58). -/
def classifyTracked (r : Record) (f : Frame) (epoch : Byte) : Classified :=
  let j := judgeWindow (trackPath r f.path f.seq epoch) f epoch (outOfOrder r f.path f.seq)
  { record := j.record,
    incs := if r.definition.dual then addMisses j.incs f.path (missesOf r f.path f.seq epoch) else j.incs,
    drafts := if j.broke then [draftOf .sequenceBreak (r.high.toNat + 65536 * f.seq.toNat)] else [] }

/-- The increments added to the interval counts, each saturating at 65,535 (R77). -/
def addIntervals (c : PerGrade Nat) (incs : Nine Nat) : PerGrade Nat :=
  { loss := satAdd max16 c.loss incs.dropped, timing := satAdd max16 c.timing incs.late,
    order := satAdd max16 c.order (incs.reordered + incs.straggler),
    path := satAdd max16 c.path (incs.missedA + incs.missedB) }

/-- The history with a frame at the front; the oldest of four leaves (R76). -/
def addHistory (h : List HistoryEntry) (f : Frame) (incs : Nine Nat) : List HistoryEntry :=
  { seq := f.seq, path := f.path, tick := f.tick, cats := classificationSet incs } :: h.take (Config.historyEntries - 1)

/-- The record after the work after classification: tallies, history, last accepted cycle, interval counts (R57, R76, R77,
R82). -/
def accountFrame (r : Record) (f : Frame) (incs : Nine Nat) (cycle : Word) : Record :=
  { r with tallies := nineMap2 (satAdd max32) r.tallies incs, history := addHistory r.history f incs,
           lastCycle := if 0 < incs.accepted then cycle else r.lastCycle, intervals := addIntervals r.intervals incs }

/-- STREAM_RESUMED, when the frame is accepted for a STALE stream, with the cycles elapsed (R78). -/
def resumeDrafts (state : SlotState) (lastCycle : Word) (incs : Nine Nat) (cycle : Word) : List Draft :=
  if state = .stale ∧ 0 < incs.accepted then [draftOf .streamResumed (cycle - lastCycle).toNat] else []

/-- The state after a frame: TRACKING when it acquires or is accepted (R59, R78). -/
def stateAfterFrame (state : SlotState) (incs : Nine Nat) : SlotState := if 0 < incs.accepted then .tracking else state

/-- The current epoch of a frame's path, as the Intake holds it (R12, R55); 0 for NONE, which no tracker consults. -/
def epochOf (i : Intake) : PathCode → Byte
  | .a => i.pathA.epoch
  | .b => i.pathB.epoch
  | .none => 0

/-- The classification of a frame into a slot's record, by the slot's state (R58). -/
def classify (sl : Slot) (f : Frame) (epoch : Byte) : Classified :=
  if sl.state = .defined then acquire sl.record f epoch else classifyTracked sl.record f epoch

/-- The slot after a frame has been classified into its record (R58). -/
def slotAfterFrame (sl : Slot) (f : Frame) (epoch : Byte) (cycle : Word) : Slot :=
  let c := classify sl f epoch
  { sl with state := stateAfterFrame sl.state c.incs, record := accountFrame c.record f c.incs cycle }

/-- The frame's own conditions, in order (R79). -/
def frameDrafts (sl : Slot) (f : Frame) (epoch : Byte) (cycle : Word) : List Draft :=
  (classify sl f epoch).drafts ++ resumeDrafts sl.state sl.record.lastCycle (classify sl f epoch).incs cycle

/-- The hand-off of a classified frame to the Watch Block (R80, R141). -/
def handoffOf (n : Nat) (sl : Slot) (f : Frame) (incs : Nine Nat) (cycle : Word) (view : Option StreamView) : Handoff :=
  { slot := n, tag := sl.tag, seq := f.seq, path := f.path, tick := f.tick, incs := incs, cycle := cycle,
    snapshot := view.map (·.snapshot), history := (view.map (·.history)).getD [] }

/-- The hand-off is made at once when the frame has no record of its own, and else when the log has taken them (R79,
notes/assumptions/21). -/
def makeHandoff (s : State) (h : Handoff) (conditions : List Condition) : State :=
  if conditions.isEmpty then { s with watch := { s.watch with handoffs := s.watch.handoffs ++ [h] } }
  else { s with classifier := some h }

/-! ### Taking a frame (R55, R56) -/

/-- Counts a frame discarded at a FAULTED slot (R46, R56). -/
def countFaultedDiscard (s : State) : State :=
  { s with intake := { setCounters s.intake { s.intake.counters with
      faultedDiscards := satAdd max32 s.intake.counters.faultedDiscards 1 } with frameCount := some .faultedDiscard } }

/-- Counts a frame with path NONE for a DUAL stream (R13, R56). -/
def countMalformedClass (s : State) : State :=
  { s with intake := { setCounters s.intake { s.intake.counters with
      malformedClass := satAdd max32 s.intake.counters.malformedClass 1 } with frameCount := some .malformedClass } }

/-- The frame's tag is not in the tag map: the Stream Table enters it in the stray list (R49, notes/assumptions/25). -/
def takeStray (f : Frame) (s : State) : State :=
  let listed := strayListed s.table.strays f.tag
  let full := decide (Config.strayEntries ≤ s.table.strays.length)
  let counters := s.intake.counters
  let evictions := if !listed && full then satAdd max32 counters.strayEvictions 1 else counters.strayEvictions
  hand
    { s with
      table := { s.table with strays := straysAfter s.table.strays f.tag (cycleNow s) f.path },
      intake := setCounters s.intake { counters with strayEvictions := evictions } }
    .streamTable
    (if listed then []
     else [plainCondition (cycleNow s) .straySeen (f.tag.toNat + 65536 * pathNumber f.path)])

/-- The frame is classified into the record, which is read at the end of the access (R47, R58, R79, R80, R141). -/
def takeIntoRecord (n : Nat) (sl : Slot) (f : Frame) (during : Bool) (s : State) : State :=
  let epoch := epochOf s.intake f.path
  let cycle := cycleNow s
  let e := endAccess cycle n (slotAfterFrame sl f epoch cycle) during 1 (frameDrafts sl f epoch cycle)
  makeHandoff (hand (putSlot s n e.slot) .classifier e.conditions)
    (handoffOf n sl f (classify sl f epoch).incs cycle e.view) e.conditions

/-- The tests of R56 on a frame whose tag slot `n` holds. -/
def takeForSlot (n : Nat) (f : Frame) (u : Upset) (s : State) : State :=
  let sl := disturb u.before (slotAt s.table n)
  let s := putSlot s n sl
  if sl.state = .faulted then countFaultedDiscard s
  else if !sl.parityGood then countFaultedDiscard (failAccess s (cycleNow s) n sl 1)
  else if sl.record.definition.dual && f.path == .none then countMalformedClass s
  else takeIntoRecord n sl f u.during s

/-- The taking of one frame descriptor (R55, R56). -/
def classifyFrame (f : Frame) (u : Upset) (s : State) : State :=
  match slotOfTag s.table f.tag with
  | none => takeStray f s
  | some n => takeForSlot n f u s

/-- Whether a soft reset keeps the Intake from handing frames on: from its part in the first stage until the visit is done
(R170). -/
def framesHeld (s : State) : Bool :=
  allPorts.any (fun p => match s.softResets.get p with
    | some parts => parts.intake
    | none => false)

/-- The Classifier takes the frame at the front of the ingest queue when it has finished with the previous one (R5, R55). -/
def takeFrame (u : Upset) (s : State) : State :=
  match s.classifier, s.intake.queue with
  | none, .frame f :: rest =>
    if framesHeld s then s
    else classifyFrame f u { s with intake := { removeFront s.intake rest with frameCount := none } }
  | _, _ => s

/-- FRAME_TAKE (R55). -/
def execFrameTake (u : Upset) (s : State) : Host.Outcome State Fault Refusal := .next (whenRunning (takeFrame u) s)

end Sys2Proof.Machine
end

