-- ==== Sys2Proof/Machine/Grades.lean ====
section
/-! DEFINITION. The Rating Unit and the grades: RATING_CYCLE_EVENT, RATING_DUE, RATING_STEP, SET_GRADING, SET_RATING,
READ_GRADES, READ_RATING, SOFT_RESET_RATING (06_grades_and_thresholds.md). -/

namespace Sys2Proof.Machine

/-! ### The rating interval (R105) -/

/-- A rating falls due: the count returns to 0, and a sweep starts or the rating is skipped (R105). -/
def ratingFallsDue (r : Rating) : Rating :=
  match r.sweep with
  | none => { r with since := 0, sweep := some 0 }
  | some _ => { r with since := 0, skips := satAdd max32 r.skips 1 }

/-- A cycle event at the Rating Unit: 1 is added to the cycles since last rating, and a rating falls due when they reach R
(R105). -/
def countRatingCycle (r : Rating) : Rating :=
  if r.since + 1 < r.interval then { r with since := r.since + 1 } else ratingFallsDue r

/-- The Rating Unit takes the oldest cycle event it has not taken (R19, R105). -/
def takeRatingEvent (s : State) : State :=
  match s.rating.events with
  | 0 => s
  | k + 1 => { s with rating := countRatingCycle { s.rating with events := k } }

/-- RATING_CYCLE_EVENT: the whole of a cycle event at the Rating Unit (R105, notes/assumptions/15). -/
def execRatingCycleEvent (s : State) : Host.Outcome State Fault Refusal := .next (whenRunning takeRatingEvent s)

/-- RATING_DUE: the cycle event that brings the cycles since last rating to R (R105, notes/assumptions/15). -/
def execRatingDue (s : State) : Host.Outcome State Fault Refusal :=
  .next (whenRunning (fun s => if s.rating.since + 1 < s.rating.interval then s else takeRatingEvent s) s)

/-! ### The rating step (R107 to R110) -/

/-- The grade of an interval count under a step setting (R107). -/
def gradeOf (n step : Nat) : Nat := 200 - min 199 (n * step)

/-- The trip condition of a threshold at a new grade (R108). -/
def tripMet (threshold current : Nat) : Bool :=
  if threshold = 0 then false else if threshold = 255 then true else decide (current ≤ threshold)

/-- One grade rated: current, worst and tripped flag (R107, R109). -/
def rateGrade (g : GradeState) (c : GradeSetting) (n : Nat) : GradeState :=
  { current := gradeOf n c.step, worst := min g.worst (gradeOf n c.step), tripped := tripMet c.threshold (gradeOf n c.step) }

/-- The draft of one grade: GRADE_TRIPPED when the condition is newly met, GRADE_CLEARED when it no longer is (R109). -/
def gradeDrafts (code : Grade) (g : GradeState) (c : GradeSetting) (n : Nat) : List Draft :=
  let after := rateGrade g c n
  let detail := gradeNumber code + 256 * after.current + 65536 * c.threshold
  if !g.tripped && after.tripped then [{ kind := .gradeTripped, urgent := c.urgent, detail := detail }]
  else if g.tripped && !after.tripped then [{ kind := .gradeCleared, urgent := false, detail := detail }]
  else []

/-- The record after a rating step: the four grades rated, the interval counts 0, intervals rated raised (R107). -/
def ratedRecord (r : Record) : Record :=
  { r with
    grades := { loss := rateGrade r.grades.loss r.settings.loss r.intervals.loss,
                timing := rateGrade r.grades.timing r.settings.timing r.intervals.timing,
                order := rateGrade r.grades.order r.settings.order r.intervals.order,
                path := rateGrade r.grades.path r.settings.path r.intervals.path },
    intervals := .all 0, intervalsRated := satAdd max16 r.intervalsRated 1 }

/-- The drafts of a rating step, in grade order (R109). -/
def ratingDrafts (r : Record) : List Draft :=
  allGrades.flatMap (fun g => gradeDrafts g (r.grades.get g) (r.settings.get g) (r.intervals.get g))

/-- A rating step on a record that has passed its parity check (R107, R109, R110). -/
def rateSlot (n : Nat) (during : Bool) (sl : Slot) (s : State) : State :=
  let rated : Slot := { sl with record := ratedRecord sl.record }
  let drafts := ratingDrafts sl.record
  if drafts.isEmpty then putSlot s n (disturb during rated)
  else
    let e := endAccess (cycleNow s) n rated during 3 drafts
    hand (putSlot s n e.slot) .ratingUnit e.conditions

/-- The visit of a rating sweep to one slot: TRACKING and STALE are rated, the others passed over (R106, R107). -/
def visitRating (n : Nat) (u : Upset) (s : State) : State :=
  let sl := disturb u.before (slotAt s.table n)
  let s := putSlot s n sl
  if sl.state ≠ .tracking ∧ sl.state ≠ .stale then s
  else if sl.parityGood then rateSlot n u.during sl s
  else failAccess s (cycleNow s) n sl 3

/-- The position after a visit; the sweep ends after slot 511 (R106). -/
def nextRatingPosition (n : Nat) : Option Nat := if n < 511 then some (n + 1) else none

/-- The next visit of the rating sweep in flight (R106). -/
def stepRating (u : Upset) (s : State) : State :=
  match s.rating.sweep with
  | none => s
  | some n =>
    let t := visitRating n u s
    { t with rating := { t.rating with sweep := nextRatingPosition n } }

/-- RATING_STEP (R107). -/
def execRatingStep (u : Upset) (s : State) : Host.Outcome State Fault Refusal := .next (whenRunning (stepRating u) s)

/-! ### Commands and soft reset (R113 to R117) -/

/-- SET-GRADING from the holder (R113). -/
def setGrading (upset : Bool) (args : List Byte) (s : State) : Served :=
  match gradingArgs args with
  | none => refuse s .badValue
  | some (n, named) =>
    onRecord n upset
      (fun sl s => done (putSlot s n
        { sl with record := { sl.record with settings := installSettings named sl.record.settings } })) s

/-- SET_GRADING (R113). -/
def execSetGrading (p : Port) (upset : Bool) (s : State) : Host.Outcome State Fault Refusal :=
  .next (serve .setGrading p (underLock p (setGrading upset)) s)

/-- SET-RATING from the holder: R is installed and its count restarted (R114). -/
def setRating (args : List Byte) (s : State) : Served :=
  if args.length = 2 ∧ fieldAt args 0 2 ≠ 0 then
    done { s with rating := { s.rating with interval := fieldAt args 0 2, since := 0 } }
  else refuse s .badValue

/-- SET_RATING (R114). -/
def execSetRating (p : Port) (s : State) : Host.Outcome State Fault Refusal :=
  .next (serve .setRating p (underLock p setRating) s)

/-- READ-GRADES (R115). -/
def readGrades (upset : Bool) (args : List Byte) (s : State) : Served :=
  match oneSlotArg args with
  | none => refuse s .badValue
  | some n => onRecord n upset (fun sl s => doneWith s (gradesBytes sl)) s

/-- READ_GRADES (R115). -/
def execReadGrades (p : Port) (upset : Bool) (s : State) : Host.Outcome State Fault Refusal :=
  .next (serve .readGrades p (readGrades upset) s)

/-- The 11 data bytes of READ-RATING (R116). -/
def ratingBytes (r : Rating) : List Byte :=
  leBytes 2 r.interval ++ leBytes 2 r.since ++ [flagByte r.sweep.isSome] ++ leBytes 2 (r.sweep.getD 0) ++ leBytes 4 r.skips

/-- READ_RATING (R116). -/
def execReadRating (p : Port) (s : State) : Host.Outcome State Fault Refusal :=
  .next (serve .readRating p (noArgs (fun s => doneWith s (ratingBytes s.rating))) s)

/-- SOFT_RESET_RATING: the sweep is abandoned, the count and RATING_SKIPS become 0, R is kept (R117, R170). -/
def execSoftResetRating (issuer : Port) (s : State) : Host.Outcome State Fault Refusal :=
  .next (match s.softResets.get issuer with
    | some parts =>
      if parts.rating then s
      else { s with rating := { s.rating with since := 0, sweep := none, skips := 0 },
                    softResets := s.softResets.set issuer (some { parts with rating := true }) }
    | none => s)

end Sys2Proof.Machine
end

