-- ==== Sys2Proof/Machine/Lock.lean ====
section
/-! DEFINITION. The Lock Arbiter: CLAIM_LOCK, RELEASE_LOCK, SET_LEASE, READ_LOCK, LOCK_CYCLE_EVENT, LEASE_EXPIRY,
PORT_RESET_LOCK, SOFT_RESET_LOCK (10_the_tally_lock_and_notice_queues.md). -/

namespace Sys2Proof.Machine

/-! ### Granting and passing (R173) -/

/-- The lease that the setting in force grants: none, no expiry, when it is 0 (R173). -/
def leaseGranted (setting : Nat) : Option Nat := if setting = 0 then none else some setting

/-- The lock granted to a port, which leaves the wait list (R173). -/
def grantLock (l : Lock) (p : Port) : Lock :=
  { l with holding := some { port := p, lease := leaseGranted l.setting }, waiters := l.waiters.filter (· != p) }

/-- Why the lock passes to a waiter (R173). -/
inductive PassCause where
  | release | expiry | portReset
  deriving DecidableEq, Repr

/-- The code of a cause in LOCK_GRANTED (R173). -/
def causeNumber : PassCause → Nat
  | .release => 0
  | .expiry => 1
  | .portReset => 2

/-- The word of LOCK_GRANTED: the lease granted plus 65,536 times the cause (R173). -/
def lockGrantedWord (setting : Nat) (cause : PassCause) : Nat := setting + 65536 * causeNumber cause

/-- The lock passes to the first waiter, which is sent LOCK_GRANTED, or becomes FREE (R173). -/
def passLock (cause : PassCause) (s : State) : State :=
  match s.lock.waiters with
  | [] => { s with lock := { s.lock with holding := none } }
  | p :: _ =>
    post { s with lock := grantLock s.lock p } .lockArbiter p .lockGranted (lockGrantedWord s.lock.setting cause)

/-! ### The lease (R176) -/

/-- Replaces the holder's lease remaining. -/
def setLeaseRemaining (s : State) (h : Holding) (lease : Option Nat) : State :=
  { s with lock := { s.lock with holding := some { h with lease := lease } } }

/-- The word of LOCK_LOST: the new holder, or 255 (R176). -/
def lockLostWord (waiters : List Port) : Nat :=
  match waiters with
  | [] => 255
  | p :: _ => portNumber p

/-- The lease has expired: LOCK_LOST to the holder, then the lock passes (R176). -/
def expireLease (h : Holding) (s : State) : State :=
  passLock .expiry (post s .lockArbiter h.port .lockLost (lockLostWord s.lock.waiters))

/-- A cycle event at the Lock Arbiter: a numeric lease is reduced by 1 and expires at 0 (R176). -/
def countLease (s : State) : State :=
  match s.lock.holding with
  | none => s
  | some h => match h.lease with
    | none => s
    | some n => if 1 < n then setLeaseRemaining s h (some (n - 1)) else expireLease h s

/-- The Lock Arbiter takes the oldest cycle event it has not taken (R19, R176). -/
def takeLockEvent (s : State) : State :=
  match s.lock.events with
  | 0 => s
  | k + 1 => countLease { s with lock := { s.lock with events := k } }

/-- Whether a cycle event would bring the lease to 0 (R176). -/
def leaseAtEnd (l : Lock) : Bool :=
  match l.holding with
  | some h => match h.lease with
    | some n => decide (n ≤ 1)
    | none => false
  | none => false

/-- LOCK_CYCLE_EVENT: the whole of a cycle event at the Lock Arbiter (R176, notes/assumptions/15). -/
def execLockCycleEvent (s : State) : Host.Outcome State Fault Refusal := .next (whenRunning takeLockEvent s)

/-- LEASE_EXPIRY: the cycle event that brings the lease remaining to 0 (R176, notes/assumptions/15). -/
def execLeaseExpiry (s : State) : Host.Outcome State Fault Refusal :=
  .next (whenRunning (fun s => if leaseAtEnd s.lock then takeLockEvent s else s) s)

/-! ### Commands (R174, R175, R178) -/

/-- The lease remaining as two bytes, 0 for NONE (R174, R178). -/
def leaseBytes (lease : Option Nat) : List Byte := leBytes 2 (lease.getD 0)

/-- CLAIM-LOCK of a lock that another port holds: TRY is answered LOCK_HELD, WAIT enters the wait list once (R174). -/
def claimHeld (p : Port) (wait : Bool) (s : State) : Served :=
  if !wait then refuse s .lockHeld
  else
    let waiters := if s.lock.waiters.contains p then s.lock.waiters else s.lock.waiters ++ [p]
    ({ s with lock := { s.lock with waiters := waiters } },
     some { code := .queued, data := leBytes 1 (waiters.idxOf p + 1) })

/-- CLAIM-LOCK (R174). -/
def claimLock (p : Port) (args : List Byte) (s : State) : Served :=
  if args.length = 1 ∧ fieldAt args 0 1 ≤ 1 then
    match s.lock.holding with
    | none => doneWith { s with lock := grantLock s.lock p } (leaseBytes (leaseGranted s.lock.setting))
    | some h =>
      if h.port = p then
        (setLeaseRemaining s h (leaseGranted s.lock.setting),
         some { code := .renewed, data := leaseBytes (leaseGranted s.lock.setting) })
      else claimHeld p (fieldAt args 0 1 == 1) s
  else refuse s .badValue

/-- CLAIM_LOCK (R174). -/
def execClaimLock (p : Port) (s : State) : Host.Outcome State Fault Refusal := .next (serve .claimLock p (claimLock p) s)

/-- A port leaves the wait list; those behind it move forward (R175, R179). -/
def leaveWaiters (s : State) (p : Port) : State :=
  { s with lock := { s.lock with waiters := s.lock.waiters.filter (· != p) } }

/-- RELEASE-LOCK (R175). -/
def releaseLock (p : Port) (s : State) : Served :=
  if holdsLock s p then done (passLock .release s)
  else if s.lock.waiters.contains p then done (leaveWaiters s p)
  else refuse s .notHolder

/-- RELEASE_LOCK (R175). -/
def execReleaseLock (p : Port) (s : State) : Host.Outcome State Fault Refusal :=
  .next (serve .releaseLock p (noArgs (releaseLock p)) s)

/-- SET-LEASE from the holder: the setting is installed and the holder's own lease restarted from it (R178). -/
def setLease (args : List Byte) (s : State) : Served :=
  if args.length = 2 then
    let setting := fieldAt args 0 2
    doneWith
      { s with lock := { s.lock with
          setting := setting, holding := s.lock.holding.map (fun h => { h with lease := leaseGranted setting }) } }
      (leaseBytes (leaseGranted setting))
  else refuse s .badValue

/-- SET_LEASE (R178). -/
def execSetLease (p : Port) (s : State) : Host.Outcome State Fault Refusal :=
  .next (serve .setLease p (underLock p setLease) s)

/-- A waiter in READ-LOCK, 255 where absent (R178). -/
def waiterByte (w : Option Port) : List Byte := leBytes 1 ((w.map portNumber).getD 255)

/-- The nine data bytes of READ-LOCK (R178). -/
def lockBytes (l : Lock) : List Byte :=
  [flagByte l.holding.isSome] ++ leBytes 1 ((l.holding.map (fun h => portNumber h.port)).getD 255)
    ++ leaseBytes (l.holding.bind (·.lease)) ++ leBytes 2 l.setting ++ leBytes 1 l.waiters.length
    ++ waiterByte l.waiters[0]? ++ waiterByte l.waiters[1]?

/-- READ_LOCK (R178). -/
def execReadLock (p : Port) (s : State) : Host.Outcome State Fault Refusal :=
  .next (serve .readLock p (noArgs (fun s => doneWith s (lockBytes s.lock))) s)

/-! ### Resets (R179) -/

/-- The Lock Arbiter's part of a port reset: a holder leaves the lock as a release would, with cause 2; a waiter leaves the
wait list (R179). -/
def resetLockPort (p : Port) (s : State) : State := if holdsLock s p then passLock .portReset s else leaveWaiters s p

/-- PORT_RESET_LOCK (R169, R179). -/
def execPortResetLock (p : Port) (s : State) : Host.Outcome State Fault Refusal :=
  .next (match s.portResets.get p with
    | some parts =>
      if parts.lock then s
      else resetLockPort p { s with portResets := s.portResets.set p (some { parts with lock := true }) }
    | none => s)

/-- SOFT_RESET_LOCK: the lock becomes FREE with an empty wait list; the setting is kept and no notice is sent (R170, R179). -/
def execSoftResetLock (issuer : Port) (s : State) : Host.Outcome State Fault Refusal :=
  .next (match s.softResets.get issuer with
    | some parts =>
      if parts.lock then s
      else { s with lock := { s.lock with holding := none, waiters := [] },
                    softResets := s.softResets.set issuer (some { parts with lock := true }) }
    | none => s)

end Sys2Proof.Machine
end

