-- ==== Sys2Proof/Machine/Log.lean ====
section
/-! DEFINITION. The Condition Log: LOG_APPEND, READ_LOG, SEEK_LOG, ERASE_LOG, SET_SUBSCRIPTION, READ_LOG_STATUS,
PORT_RESET_LOG, SOFT_RESET_LOG (07_the_condition_log.md). -/

namespace Sys2Proof.Machine

/-! ### Appending (R123 to R127) -/

/-- The oldest serial held, or the next serial when the log is empty (R131). -/
def oldestSerial (l : Log) : Nat :=
  match l.records with
  | [] => l.nextSerial
  | r :: _ => r.serial

/-- Whether the removal of the oldest record takes it from under a port's cursor (R125). -/
def overrunAt (l : Log) (p : Port) : Bool :=
  match l.records with
  | [] => false
  | r :: _ => l.cursors.get p == r.serial

/-- One value for each port, from a function of the port. -/
def perPort {α : Type} (f : Port → α) : PerPort α := { ap0 := f .ap0, ap1 := f .ap1, ap2 := f .ap2 }

/-- Makes room in a full log: the oldest record is removed, and each cursor on it advances with an overrun (R125). -/
def removeOldest (l : Log) : Log :=
  { l with
    records := l.records.drop 1,
    cursors := perPort (fun p => if overrunAt l p then serialSucc (l.cursors.get p) else l.cursors.get p),
    overruns := perPort (fun p => if overrunAt l p then satAdd max16 (l.overruns.get p) 1 else l.overruns.get p) }

/-- The log with room for one more record (R125). -/
def withRoom (l : Log) : Log := if l.records.length < Config.logRecords then l else removeOldest l

/-- Stores a record as the newest, with the next serial (R124, R125). -/
def storeRecord (l : Log) (c : Condition) : Log :=
  let l := withRoom l
  { l with records := l.records ++ [{ serial := l.nextSerial, condition := c }], nextSerial := serialSucc l.nextSerial }

/-- The LOG_OVERRUN events of an append to a full log (R125). -/
def overrunEvents (l : Log) : List StatusEvent :=
  if l.records.length < Config.logRecords then []
  else (allPorts.filter (overrunAt l)).map (fun p => { port := p, latch := .logOverrun })

/-- The DEVICE_ALERT events of an URGENT record, at every port (R127). -/
def alertEvents (c : Condition) : List StatusEvent :=
  if c.urgent then allPorts.map (fun p => { port := p, latch := .deviceAlert }) else []

/-- Whether a port subscribes to the class of a record (R126, R132). -/
def subscribed (l : Log) (p : Port) (c : Condition) : Bool := (l.subscriptions.get p).getLsbD (kindClass c.kind)

/-- The CONDITION notices of a record, one to each subscribed port, with its serial (R126; order: notes/assumptions/12). -/
def conditionNotices (l : Log) (c : Condition) : List Posted :=
  (allPorts.filter (fun p => subscribed l p c)).map (fun p =>
    { sender := .conditionLog, port := p,
      notice := { kind := .condition, source := none, word := BitVec.ofNat 32 l.nextSerial } })

/-- One append, numbered, stored and announced (R123). -/
def appendRecord (s : State) (c : Condition) : State :=
  { s with log := storeRecord s.log c, statusEvents := s.statusEvents ++ overrunEvents s.log ++ alertEvents c,
           posted := s.posted ++ conditionNotices s.log c }

/-- The oldest append of a source and the appends without it (R123). -/
def takeAppend (src : LogSource) : List Append → Option (Append × List Append)
  | [] => none
  | a :: rest =>
    if a.source = src then some (a, rest) else (takeAppend src rest).map (fun r => (r.1, a :: r.2))

/-- Whether the log may take an append of a source: the records of one access stand together (R123, notes/assumptions/10). -/
def sourceMayAppend (l : Log) (src : LogSource) : Bool :=
  match l.midAccess with
  | none => true
  | some open_ => open_ == src

/-- The Classifier makes the hand-off of its frame when the log has taken the last of its records (R79). -/
def releaseHandoff (s : State) : State :=
  match s.classifier with
  | none => s
  | some h =>
    if s.appends.any (fun a => a.source == .classifier) then s
    else { s with classifier := none, watch := { s.watch with handoffs := s.watch.handoffs ++ [h] } }

/-- The log takes the oldest append of a source (R123). -/
def takeLogAppend (src : LogSource) (s : State) : State :=
  if sourceMayAppend s.log src then
    match takeAppend src s.appends with
    | none => s
    | some (a, rest) =>
      let t := appendRecord { s with appends := rest } a.condition
      releaseHandoff { t with log := { t.log with midAccess := if a.last then none else some src } }
  else s

/-- LOG_APPEND (R123). -/
def execLogAppend (src : LogSource) (s : State) : Host.Outcome State Fault Refusal := .next (whenRunning (takeLogAppend src) s)

/-! ### Reading the log (R128 to R131, R134) -/

/-- The records unread by a port, from its cursor on (R128). -/
def unreadRecords (l : Log) (p : Port) : List LogRecord :=
  if l.cursors.get p = l.nextSerial then [] else l.records.dropWhile (fun r => r.serial != l.cursors.get p)

/-- The bytes a record takes in a response (R188). -/
def recordSize (r : LogRecord) : Nat := 32 + 9 * r.condition.leadIn.length

/-- The records that a READ-LOG returns: up to the maximum, as long as the data stay within 250 bytes (R129). -/
def readableRecords (limit room : Nat) : List LogRecord → List LogRecord
  | [] => []
  | r :: rest =>
    match limit with
    | 0 => []
    | k + 1 => if recordSize r ≤ room then r :: readableRecords k (room - recordSize r) rest else []

/-- Moves a port's cursor. -/
def setCursor (s : State) (p : Port) (serial : Nat) : State :=
  { s with log := { s.log with cursors := s.log.cursors.set p serial } }

/-- READ-LOG, a maximum of 1..4 records (R129). -/
def readLog (p : Port) (args : List Byte) (s : State) : Served :=
  let limit := fieldAt args 0 1
  if args.length = 1 ∧ 1 ≤ limit ∧ limit ≤ 4 then
    let unread := unreadRecords s.log p
    let returned := readableRecords limit (Config.readLogBytes - 2) unread
    match returned.getLast? with
    | none => refuse s .empty
    | some newest =>
      doneWith (setCursor s p (serialSucc newest.serial))
        (leBytes 1 returned.length ++ leBytes 1 (unread.length - returned.length) ++ returned.flatMap logRecordBytes)
  else refuse s .badValue

/-- READ_LOG (R129). -/
def execReadLog (p : Port) (s : State) : Host.Outcome State Fault Refusal := .next (serve .readLog p (readLog p) s)

/-- SEEK-LOG: OLDEST or NEWEST (R131). -/
def seekLog (p : Port) (args : List Byte) (s : State) : Served :=
  if args.length = 1 ∧ fieldAt args 0 1 ≤ 1 then
    let serial := if fieldAt args 0 1 = 0 then oldestSerial s.log else s.log.nextSerial
    doneWith (setCursor s p serial) (leBytes 4 serial)
  else refuse s .badValue

/-- SEEK_LOG (R131). -/
def execSeekLog (p : Port) (s : State) : Host.Outcome State Fault Refusal := .next (serve .seekLog p (seekLog p) s)

/-- SET-SUBSCRIPTION: a class mask of six bits replaces the port's set (R132). -/
def setSubscription (p : Port) (args : List Byte) (s : State) : Served :=
  if args.length = 1 ∧ fieldAt args 0 1 < 64 then
    done { s with log := { s.log with
      subscriptions := s.log.subscriptions.set p (BitVec.ofNat 6 (fieldAt args 0 1)) } }
  else refuse s .badValue

/-- SET_SUBSCRIPTION (R132). -/
def execSetSubscription (p : Port) (s : State) : Host.Outcome State Fault Refusal :=
  .next (serve .setSubscription p (setSubscription p) s)

/-- The 17 data bytes of READ-LOG-STATUS (R134). -/
def logStatusBytes (l : Log) (p : Port) : List Byte :=
  leBytes 4 (if l.records.isEmpty then 0 else oldestSerial l) ++ leBytes 4 l.nextSerial ++ leBytes 1 l.records.length
    ++ leBytes 4 (l.cursors.get p) ++ leBytes 1 (unreadRecords l p).length ++ leBytes 2 (l.overruns.get p)
    ++ leBytes 1 (l.subscriptions.get p).toNat

/-- READ_LOG_STATUS (R134). -/
def execReadLogStatus (p : Port) (s : State) : Host.Outcome State Fault Refusal :=
  .next (serve .readLogStatus p (noArgs (fun s => doneWith s (logStatusBytes s.log p))) s)

/-! ### Erase and resets (R133, R136, R137) -/

/-- Removes every record and sets every cursor to the next serial (R133, R136). -/
def emptyLog (l : Log) : Log := { l with records := [], cursors := .all l.nextSerial }

/-- The detail word of LOG_ERASED and SOFT_RESET: the issuing port plus 256 times the records removed (R133, R136). -/
def removedDetail (p : Port) (l : Log) : Nat := portNumber p + 256 * l.records.length

/-- ERASE-LOG from the holder: as one action the log empties and appends LOG_ERASED (R133). -/
def eraseLog (p : Port) (s : State) : Served :=
  done (appendRecord { s with log := emptyLog s.log } (plainCondition (cycleNow s) .logErased (removedDetail p s.log)))

/-- ERASE_LOG; the log takes it between accesses' records, not amid those of one (R123, R133, notes/assumptions/10). -/
def execEraseLog (p : Port) (s : State) : Host.Outcome State Fault Refusal :=
  .next (if s.log.midAccess.isSome then s else serve .eraseLog p (underLock p (noArgs (eraseLog p))) s)

/-- A port's share of the log at its port reset: cursor to the oldest record, overrun count 0, no subscriptions (R137). -/
def resetLogPort (p : Port) (l : Log) : Log :=
  { l with cursors := l.cursors.set p (oldestSerial l), overruns := l.overruns.set p 0,
           subscriptions := l.subscriptions.set p 0 }

/-- PORT_RESET_LOG (R137, R169). -/
def execPortResetLog (p : Port) (s : State) : Host.Outcome State Fault Refusal :=
  .next (match s.portResets.get p with
    | some parts =>
      if parts.log then s
      else { s with log := resetLogPort p s.log, portResets := s.portResets.set p (some { parts with log := true }) }
    | none => s)

/-- The log's part of soft reset, as one action: empty, overrun counts 0, SOFT_RESET appended; subscriptions and the next serial
are kept (R136). The record carries the cycle count at this part (notes/assumptions/28). -/
def softResetLog (issuer : Port) (s : State) : State :=
  appendRecord { s with log := { emptyLog s.log with overruns := .all 0 } }
    (plainCondition (cycleNow s) .softReset (removedDetail issuer s.log))

/-- Whether every part of the first stage of a soft reset is done (R170). -/
def firstStageDone (parts : SoftResetParts) : Bool :=
  parts.notices && parts.lock && parts.intake && parts.sweep && parts.rating && parts.watch
    && parts.ports.ap0 && parts.ports.ap1 && parts.ports.ap2

/-- SOFT_RESET_LOG: the second stage, when every part of the first is done, between accesses' records (R123, R136, R170). -/
def execSoftResetLog (issuer : Port) (s : State) : Host.Outcome State Fault Refusal :=
  .next (match s.softResets.get issuer with
    | some parts =>
      if firstStageDone parts && !parts.log && s.log.midAccess.isNone then
        softResetLog issuer { s with softResets := s.softResets.set issuer (some { parts with log := true }) }
      else s
    | none => s)

end Sys2Proof.Machine
end

