-- ==== Sys2Proof/Machine/Notices.lean ====
section
/-! DEFINITION. The Notice Unit: NOTICE_PLACE, POST_NOTE, PEEK_NOTICE, TAKE_NOTICE, FLUSH_NOTICES, PORT_RESET_NOTICES,
SOFT_RESET_NOTICES (10_the_tally_lock_and_notice_queues.md). -/

namespace Sys2Proof.Machine

/-! ### Device notices (R180) -/

/-- A device notice that finds 15 notices is discarded, and the port's NOTICE_OVERFLOW latch is set (R180). -/
def overflowNotice (s : State) (p : Port) : State :=
  putPort s p (raiseLatch (s.ports.get p) (s.queues.get p) .noticeOverflow)

/-- A device notice joins a queue with room, or is discarded (R180). -/
def placeDeviceNotice (n : Posted) (s : State) : State :=
  if queueHasRoom s n.port then placeNotice s n.port n.notice else overflowNotice s n.port

/-- The oldest notice of a sender and the notices without it. -/
def takePosted (src : NoticeSource) : List Posted → Option (Posted × List Posted)
  | [] => none
  | n :: rest =>
    if n.sender = src then some (n, rest) else (takePosted src rest).map (fun r => (r.1, n :: r.2))

/-- The Notice Unit takes the oldest notice that a block has sent (R180). -/
def takeDeviceNotice (src : NoticeSource) (s : State) : State :=
  match takePosted src s.posted with
  | none => s
  | some (n, rest) => placeDeviceNotice n { s with posted := rest }

/-- NOTICE_PLACE (R180). -/
def execNoticePlace (src : NoticeSource) (s : State) : Host.Outcome State Fault Refusal :=
  .next (whenRunning (takeDeviceNotice src) s)

/-! ### POST-NOTE (R181) -/

/-- The NOTE of a port with a word (R181). -/
def noteOf (p : Port) (word : Nat) : Notice := { kind := .note, source := some p, word := BitVec.ofNat 32 word }

/-- The ports other than the issuer whose queues have room (R181). -/
def receivers (s : State) (p : Port) : List Port := allPorts.filter (fun q => q != p && queueHasRoom s q)

/-- A post to one port: placed, or refused QUEUE_FULL (R181). -/
def postToOne (q : Port) (n : Notice) (s : State) : Served :=
  if queueHasRoom s q then done (placeNotice s q n) else refuse s .queueFull

/-- A post to ALL: each other port with room receives it (R181). -/
def postToAll (p : Port) (n : Notice) (s : State) : Served :=
  doneWith ((receivers s p).foldl (fun t q => placeNotice t q n) s) (leBytes 1 (receivers s p).length)

/-- POST-NOTE (R181). -/
def postNote (p : Port) (args : List Byte) (s : State) : Served :=
  let n := noteOf p (fieldAt args 1 4)
  if args.length = 5 ∧ fieldAt args 0 1 ≤ 3 then
    match portOfNumber (fieldAt args 0 1) with
    | some q => postToOne q n s
    | none => postToAll p n s
  else refuse s .badValue

/-- POST_NOTE (R181). -/
def execPostNote (p : Port) (s : State) : Host.Outcome State Fault Refusal := .next (serve .postNote p (postNote p) s)

/-! ### PEEK, TAKE and FLUSH (R182) -/

/-- Replaces a port's queue. -/
def setQueue (s : State) (p : Port) (queue : List Notice) : State := { s with queues := s.queues.set p queue }

/-- PEEK-NOTICE (R182). -/
def peekNotice (p : Port) (s : State) : Served :=
  match s.queues.get p with
  | [] => refuse s .empty
  | n :: rest => doneWith s (noticeBytes n ++ leBytes 1 (rest.length + 1))

/-- PEEK_NOTICE (R182). -/
def execPeekNotice (p : Port) (s : State) : Host.Outcome State Fault Refusal :=
  .next (serve .peekNotice p (noArgs (peekNotice p)) s)

/-- TAKE-NOTICE (R182). -/
def takeNotice (p : Port) (s : State) : Served :=
  match s.queues.get p with
  | [] => refuse s .empty
  | n :: rest => doneWith (setQueue s p rest) (noticeBytes n ++ leBytes 1 rest.length)

/-- TAKE_NOTICE (R182). -/
def execTakeNotice (p : Port) (s : State) : Host.Outcome State Fault Refusal :=
  .next (serve .takeNotice p (noArgs (takeNotice p)) s)

/-- FLUSH-NOTICES (R182). -/
def flushNotices (p : Port) (s : State) : Served :=
  match s.queues.get p with
  | [] => refuse s .empty
  | queue => doneWith (setQueue s p []) (leBytes 1 queue.length)

/-- FLUSH_NOTICES (R182). -/
def execFlushNotices (p : Port) (s : State) : Host.Outcome State Fault Refusal :=
  .next (serve .flushNotices p (noArgs (flushNotices p)) s)

/-! ### Resets (R183) -/

/-- PORT_RESET_NOTICES: the port's queue empties (R169, R183). -/
def execPortResetNotices (p : Port) (s : State) : Host.Outcome State Fault Refusal :=
  .next (match s.portResets.get p with
    | some parts =>
      if parts.notices then s
      else setQueue { s with portResets := s.portResets.set p (some { parts with notices := true }) } p []
    | none => s)

/-- SOFT_RESET_NOTICES: every queue empties (R170, R183). -/
def execSoftResetNotices (issuer : Port) (s : State) : Host.Outcome State Fault Refusal :=
  .next (match s.softResets.get issuer with
    | some parts =>
      if parts.notices then s
      else { s with queues := .all [], softResets := s.softResets.set issuer (some { parts with notices := true }) }
    | none => s)

end Sys2Proof.Machine
end

