-- ==== Sys2Proof/Machine/Ports.lean ====
section
/-! DEFINITION. The Access Ports: the exchange (REQUEST_COMPLETE, BLOCK_ANSWER, SELECT_RELEASE, SELECT_REFUSED), the commands of
the port itself, and its part of the resets (09_access_ports.md). -/

namespace Sys2Proof.Machine

/-! ### Receiving a request (R156, R157, R160, R162) -/

/-- A request that has completed in IDLE: refused by the port at once, or in hand for its block (R157, R160). -/
def acceptFrame (a : Access) (frame : List Byte) : Access :=
  let a := { a with select := .open_, received := [], request := some (frameRequest frame), answer := none }
  match frameRefusal frame with
  | some code => { a with state := .answering, response := responseFrame (.bare code) }
  | none => { a with state := .executing }

/-- A request that has completed in INIT is answered NOT_READY at once, and reaches no block (R162). -/
def refuseInInit (a : Access) : Access :=
  { a with select := .open_, received := [], response := responseFrame (.bare .notReady) }

/-- The bytes received so far in an open period (R156). -/
def keepReceived (a : Access) (received : List Byte) : Access := { a with select := .open_, received := received }

/-- A port in IDLE takes in bytes (R156, R157). -/
def receiveIdle (bytes : List Byte) (a : Access) : Access :=
  match completeFrame (a.received ++ bytes) with
  | none => keepReceived a (a.received ++ bytes)
  | some frame => acceptFrame a frame

/-- A port in INIT takes in bytes; after a completed request the further bytes of the period are not examined (R156, R162). -/
def receiveInit (bytes : List Byte) (a : Access) : Access :=
  if a.response.isEmpty then
    match completeFrame (a.received ++ bytes) with
    | none => keepReceived a (a.received ++ bytes)
    | some _ => refuseInInit a
  else a

/-- Bytes shifted in at a port: examined in IDLE and INIT, in a period that is not refused (R155, R159). -/
def receiveBytes (bytes : List Byte) (a : Access) : Access :=
  if a.select = .refused then a
  else match a.state with
    | .idle => receiveIdle bytes a
    | .init => receiveInit bytes a
    | .executing | .answering => a

/-- REQUEST_COMPLETE; while RESET is asserted the ports ignore select (R160, R162, notes/assumptions/6). -/
def execRequestComplete (p : Port) (bytes : List Byte) (s : State) : Host.Outcome State Fault Refusal :=
  .next (if s.startup = .resetAsserted then s else putPort s p (receiveBytes bytes (s.ports.get p)))

/-! ### Answering (R157, R158, R163) -/

/-- The exchange record of the request in hand (R163). -/
def exchangeOf (r : Request) (response : Byte) (delivery : Delivery) : Exchange :=
  { number := r.number, code := r.code, response := response, delivery := delivery }

/-- The end of an exchange at a port: the record is written and the port is IDLE (R157, R163). -/
def endExchange (a : Access) (response : Byte) (delivery : Delivery) : Access :=
  { a with state := .idle, request := none, answer := none, response := [],
           exchange := (a.request.map (fun r => exchangeOf r response delivery)).or a.exchange }

/-- The block's answer reaches the port: placed for sending with select asserted, discarded with delivery CUT when select
was released (R157, R158). -/
def deliverAnswer (a : Access) (ans : Answer) : Access :=
  if a.select = .open_ then { a with state := .answering, answer := none, response := responseFrame ans }
  else endExchange a (responseCode ans.code) .cut

/-- Whether a port reset of the port still has parts to be taken (R169). -/
def partsOutstanding (parts : Option PortResetParts) : Bool :=
  match parts with
  | none => false
  | some q => !(q.notices && q.marks && q.log && q.lock && q.watch)

/-- Whether an answer given after a record is stored still waits for it (notes/assumptions/11). -/
def appendsOutstanding (s : State) (p : Port) : Bool := s.appends.any (fun a => a.holds == some p)

/-- The owning block answers the request it has taken, when its answer may be given (R157, R169). It waits for the records of
notes/assumptions/11 and the parts of a port reset, and not for a status source set event that the command sent, such as the
CAPTURE_DONE of ARM-WATCH and DISARM-WATCH: the model's choice (notes/assumptions/29). -/
def answerPort (p : Port) (s : State) : State :=
  let a := s.ports.get p
  match a.state, a.answer with
  | .executing, some ans =>
    if partsOutstanding (s.portResets.get p) || appendsOutstanding s p then s
    else putPort { s with portResets := s.portResets.set p none } p (deliverAnswer a ans)
  | _, _ => s

/-- BLOCK_ANSWER (R157). -/
def execBlockAnswer (p : Port) (s : State) : Host.Outcome State Fault Refusal := .next (answerPort p s)

/-! ### Select (R158, R159) -/

/-- The delivery of a response of which `sent` bytes were shifted out (R157, R158). -/
def deliveryOf (response : List Byte) (sent : Nat) : Delivery := if response.length ≤ sent then .whole else .cut

/-- The release of a period that was not refused, by the port state (R158, R162). `running` is whether INIT has ended. -/
def releasePeriod (running : Bool) (sent : Nat) (a : Access) : Access :=
  let b := { a with select := .released }
  match a.state with
  | .idle => { b with received := [] }
  | .executing => b
  | .answering => endExchange b (a.response.headD 0) (deliveryOf a.response sent)
  | .init => { b with received := [], response := [], state := if running then .idle else .init }

/-- Select is released (R158); a refused period ends and changes nothing else (R159). -/
def releaseSelect (running : Bool) (sent : Nat) (a : Access) : Access :=
  match a.select with
  | .released => a
  | .refused => { a with select := .released }
  | .open_ => releasePeriod running sent a

/-- SELECT_RELEASE (R158). -/
def execSelectRelease (p : Port) (sent : Nat) (s : State) : Host.Outcome State Fault Refusal :=
  .next (if s.startup = .resetAsserted then s
    else putPort s p (releaseSelect (s.startup == .running) sent (s.ports.get p)))

/-- A select period that begins while the port is EXECUTING is refused (R159). -/
def refuseSelect (a : Access) : Access :=
  if a.state = .executing ∧ a.select = .released then { a with select := .refused } else a

/-- SELECT_REFUSED (R159). -/
def execSelectRefused (p : Port) (s : State) : Host.Outcome State Fault Refusal :=
  .next (putPort s p (refuseSelect (s.ports.get p)))

/-- The byte a port shifts out after `sent` bytes of the response frame, in an open or refused period (R155). -/
def dataOut (a : Access) (sent : Nat) : Byte :=
  if a.select = .refused then 0xfe
  else match a.state with
    | .executing => 0x00
    | .idle => 0xff
    | .init | .answering => (a.response[sent]?).getD 0xff

/-! ### Status and attention (R164 to R167) -/

/-- Whether a status source set event is on its way, and the events without the oldest such one. -/
def takeStatusEvent (e : StatusEvent) : List StatusEvent → Option (List StatusEvent)
  | [] => none
  | x :: rest => if x = e then some rest else (takeStatusEvent e rest).map (x :: ·)

/-- A status source set event is taken at its port (R164). -/
def takeStatusSource (p : Port) (l : Latch) (s : State) : State :=
  match takeStatusEvent { port := p, latch := l } s.statusEvents with
  | none => s
  | some rest => putPort { s with statusEvents := rest } p (raiseLatch (s.ports.get p) (s.queues.get p) l)

/-- STATUS_SOURCE_SET (R164). -/
def execStatusSourceSet (p : Port) (l : Latch) (s : State) : Host.Outcome State Fault Refusal :=
  .next (whenRunning (takeStatusSource p l) s)

/-- The status of a port (R164). -/
def statusOf (s : State) (p : Port) : BitVec 5 := statusBits (s.ports.get p).latches (s.queues.get p)

/-- The code of a delivery (R167). -/
def deliveryNumber : Delivery → Nat
  | .whole => 1
  | .cut => 2

/-- The exchange record in READ-STATUS, four bytes, 0 when absent (R163, R167). -/
def exchangeBytes : Option Exchange → List Byte
  | some e => [e.number, e.code, e.response] ++ leBytes 1 (deliveryNumber e.delivery)
  | none => leBytes 4 0

/-- READ-STATUS: seven data bytes (R167). -/
def readStatus (p : Port) (s : State) : Served :=
  let a := s.ports.get p
  doneWith s (leBytes 1 (statusOf s p).toNat ++ leBytes 1 a.enables.toNat ++ [flagByte a.attn] ++ exchangeBytes a.exchange)

/-- READ_STATUS (R167). -/
def execReadStatus (p : Port) (s : State) : Host.Outcome State Fault Refusal :=
  .next (serve .readStatus p (noArgs (readStatus p)) s)

/-- CLEAR-STATUS: the latches named are cleared, ATTN stays (R167). -/
def clearStatus (p : Port) (args : List Byte) (s : State) : Served :=
  if args.length = 1 ∧ fieldAt args 0 1 < 32 then
    let a := s.ports.get p
    let t := putPort s p { a with latches := latchesClear a.latches (BitVec.ofNat 8 (fieldAt args 0 1)) }
    doneWith t (leBytes 1 (statusOf t p).toNat)
  else refuse s .badValue

/-- CLEAR_STATUS (R167). -/
def execClearStatus (p : Port) (s : State) : Host.Outcome State Fault Refusal :=
  .next (serve .clearStatus p (clearStatus p) s)

/-- SET-ATTENTION: the enables are replaced and ATTN is evaluated (R166). -/
def setAttention (p : Port) (args : List Byte) (s : State) : Served :=
  if args.length = 1 ∧ fieldAt args 0 1 < 32 then
    let a := evaluateAttn { s.ports.get p with enables := BitVec.ofNat 5 (fieldAt args 0 1) } (s.queues.get p)
    doneWith (putPort s p a) [flagByte a.attn]
  else refuse s .badValue

/-- SET_ATTENTION (R166). -/
def execSetAttention (p : Port) (s : State) : Host.Outcome State Fault Refusal :=
  .next (serve .setAttention p (setAttention p) s)

/-- REARM-ATTENTION: an ASSERTED ATTN becomes QUIET and is evaluated at once; in QUIET there is no effect (R166). -/
def rearmAttention (p : Port) (s : State) : Served :=
  let a := s.ports.get p
  let b := if a.attn then evaluateAttn { a with attn := false } (s.queues.get p) else a
  doneWith (putPort s p b) [flagByte b.attn]

/-- REARM_ATTENTION (R166). -/
def execRearmAttention (p : Port) (s : State) : Host.Outcome State Fault Refusal :=
  .next (serve .rearmAttention p (noArgs (rearmAttention p)) s)

/-! ### IDENTIFY (R168) -/

/-- The 13 data bytes of IDENTIFY (R168). -/
def identifyBytes (p : Port) : List Byte :=
  leBytes 2 Config.partCode ++ leBytes 1 Config.revision ++ leBytes 1 (portNumber p) ++ leBytes 2 Config.streamSlots
    ++ leBytes 1 Config.logRecords ++ leBytes 1 Config.queueNotices ++ leBytes 1 Config.watchUnits
    ++ leBytes 1 Config.captureEntries ++ leBytes 1 Config.strayEntries ++ leBytes 2 Config.ingestDescriptors

/-- IDENTIFY (R168). -/
def execIdentify (p : Port) (s : State) : Host.Outcome State Fault Refusal :=
  .next (serve .identify p (noArgs (fun s => doneWith s (identifyBytes p))) s)

/-! ### PORT-RESET and SOFT-RESET (R169, R170) -/

/-- No part of a port reset done. -/
def PortResetParts.begun : PortResetParts := { notices := false, marks := false, log := false, lock := false, watch := false }

/-- PORT-RESET: the answer is formed, the port's own part is done, and the blocks' parts are outstanding (R169). -/
def portReset (p : Port) (s : State) : Served :=
  done (putPort { s with portResets := s.portResets.set p (some .begun) } p
    { s.ports.get p with latches := .clear, enables := 0, attn := false })

/-- PORT_RESET (R169). -/
def execPortReset (p : Port) (s : State) : Host.Outcome State Fault Refusal :=
  .next (serve .portReset p (noArgs (portReset p)) s)

/-- No part of a soft reset done. -/
def SoftResetParts.begun : SoftResetParts :=
  { notices := false, lock := false, intake := false, sweep := false, rating := false, watch := false, ports := .all false,
    log := false }

/-- SOFT-RESET from the holder: its stages begin; the answer is given when the third is done (R170). -/
def softReset (p : Port) (s : State) : Served := ({ s with softResets := s.softResets.set p (some .begun) }, none)

/-- SOFT_RESET (R170). -/
def execSoftReset (p : Port) (s : State) : Host.Outcome State Fault Refusal :=
  .next (serve .softReset p (underLock p (noArgs (softReset p))) s)

/-- A port's part of soft reset: latches cleared, enables kept, ATTN QUIET and then evaluated (R170). -/
def softResetAccess (a : Access) (queue : List Notice) : Access :=
  evaluateAttn { a with latches := .clear, attn := false } queue

/-- SOFT_RESET_PORT: port `q` takes its part, after the Notice Unit's part (R170). -/
def execSoftResetPort (issuer q : Port) (s : State) : Host.Outcome State Fault Refusal :=
  .next (match s.softResets.get issuer with
    | some parts =>
      if parts.notices && !parts.ports.get q then
        putPort { s with softResets := s.softResets.set issuer (some { parts with ports := parts.ports.set q true }) } q
          (softResetAccess (s.ports.get q) (s.queues.get q))
      else s
    | none => s)

end Sys2Proof.Machine
end

