-- ==== Sys2Proof/Machine/Startup.lean ====
section
/-! DEFINITION. RESET and start-up: RESET_ASSERT, RESET_RELEASE, INIT_END (R15, R162, R171). -/

namespace Sys2Proof.Machine

/-- RESET_ASSERT: all work is abandoned and every block goes to its device-reset values; the ports are in INIT (R171). -/
def execResetAssert (s : State) : Host.Outcome State Fault Refusal := .next { State.reset with pending := s.pending }

/-- RESET_RELEASE: start-up INIT begins; the tables are prepared at their device-reset values (R162). -/
def execResetRelease (s : State) : Host.Outcome State Fault Refusal :=
  .next (if s.startup = .resetAsserted then { State.reset with pending := s.pending, startup := .initializing } else s)

/-- A port at the end of INIT: IDLE, or finishing the period that is open as it began (R162). -/
def portAtInitEnd (a : Access) : Access := if a.select = .released then { a with state := .idle } else a

/-- The end of INIT, at one moment for the three ports, the Intake and the Cycle Monitor. A run of the link in progress is
ignored to its end (R15). -/
def endInit (strobe : Bool) (s : State) : State :=
  { s with startup := .running, intake := { s.intake with staleRun := strobe },
           ports := { ap0 := portAtInitEnd s.ports.ap0, ap1 := portAtInitEnd s.ports.ap1, ap2 := portAtInitEnd s.ports.ap2 } }

/-- INIT_END (R162). -/
def execInitEnd (strobe : Bool) (s : State) : Host.Outcome State Fault Refusal :=
  .next (if s.startup = .initializing then endInit strobe s else s)

end Sys2Proof.Machine
end

