-- ==== Sys2Proof/Machine/Tallies.lean ====
section
/-! DEFINITION. Marks, the tally sheet and the Sweep Engine: MARK, MARK_VISIT, READ_SHEET, CLEAR_TALLIES, START_SCRUB,
ABORT_SWEEP, READ_SWEEP, CLEAR_STEP, SCRUB_STEP, PORT_RESET_MARKS, SOFT_RESET_SWEEP (05_tallies_marks_and_sweeps.md). -/

namespace Sys2Proof.Machine

/-! ### MARK (R84 to R87) -/

/-- Replaces a port's MARK walk. -/
def setMarkWalk (s : State) (p : Port) (w : Option MarkWalk) : State :=
  { s with table := { s.table with markWalks := s.table.markWalks.set p w } }

/-- MARK: the walk over the range starts; its last visit gives the answer (R85, R86). -/
def startMark (p : Port) (args : List Byte) (s : State) : Served :=
  match slotRangeArgs args with
  | none => refuse s .badValue
  | some (first, last) => (setMarkWalk s p (some { last := last, position := first, marked := 0, faulted := 0 }), none)

/-- MARK (R85). -/
def execMark (p : Port) (s : State) : Host.Outcome State Fault Refusal := .next (serve .mark p (startMark p) s)

/-- A port's nine marks become the nine tallies (R84, R85). -/
def markRecord (p : Port) (r : Record) : Record := { r with marks := r.marks.set p r.tallies }

/-- The answer of MARK, by the counts of its walk (R86). -/
def markAnswer (w : MarkWalk) : Answer :=
  if 0 < w.marked then .okData (leBytes 2 w.marked ++ leBytes 2 w.faulted)
  else if 0 < w.faulted then { code := .faulted, data := leBytes 2 w.faulted }
  else .bare .noSuchStream

/-- The walk after a visit: the next position, or the answer after the last (R86). -/
def advanceMark (p : Port) (w : MarkWalk) (s : State) : State :=
  if w.position < w.last then setMarkWalk s p (some { w with position := w.position + 1 })
  else giveAnswer (setMarkWalk s p none) p (markAnswer w)

/-- One visit of a MARK walk (R85). Its RECORD_FAULT carries the cycle count at the visit (notes/assumptions/28). -/
def visitMark (p : Port) (upset : Bool) (w : MarkWalk) (s : State) : State :=
  let n := w.position
  let sl := disturb upset (slotAt s.table n)
  let s := putSlot s n sl
  if sl.state = .free then advanceMark p w s
  else if sl.state = .faulted then advanceMark p { w with faulted := w.faulted + 1 } s
  else if sl.parityGood then
    advanceMark p { w with marked := w.marked + 1 } (putSlot s n { sl with record := markRecord p sl.record })
  else advanceMark p { w with faulted := w.faulted + 1 } (failAccess s (cycleNow s) n sl 6)

/-- The next visit of a port's MARK walk, if one is under way (R85). -/
def stepMark (p : Port) (upset : Bool) (s : State) : State :=
  match s.table.markWalks.get p with
  | none => s
  | some w => visitMark p upset w s

/-- MARK_VISIT (R85). -/
def execMarkVisit (p : Port) (upset : Bool) (s : State) : Host.Outcome State Fault Refusal :=
  .next (whenRunning (stepMark p upset) s)

/-- A port's marks read 0 in a slot outside FREE, FAULTED slots among them (R87). -/
def unmarkSlot (p : Port) (sl : Slot) : Slot :=
  if sl.state = .free then sl else { sl with record := { sl.record with marks := sl.record.marks.set p (.all 0) } }

/-- PORT_RESET_MARKS: the port's marks read 0 on every slot at once (R87, R169). -/
def execPortResetMarks (p : Port) (s : State) : Host.Outcome State Fault Refusal :=
  .next (match s.portResets.get p with
    | some parts =>
      if parts.marks then s
      else { s with table := mapSlots s.table (fun _ sl => unmarkSlot p sl),
                    portResets := s.portResets.set p (some { parts with marks := true }) }
    | none => s)

/-! ### The tally sheet (R88 to R90) -/

/-- READ-SHEET (R88). -/
def readSheet (p : Port) (upset : Bool) (args : List Byte) (s : State) : Served :=
  let n := fieldAt args 0 2
  let mode := fieldAt args 2 1
  if args.length = 3 ∧ n ≤ 511 ∧ mode ≤ 1 then
    onRecord n upset (fun sl s => doneWith s (sheetBytes n sl p (mode == 1) (gapCountNow s) (cycleNow s))) s
  else refuse s .badValue

/-- READ_SHEET (R88). -/
def execReadSheet (p : Port) (upset : Bool) (s : State) : Host.Outcome State Fault Refusal :=
  .next (serve .readSheet p (readSheet p upset) s)

/-! ### Starting a sweep (R92, R98) -/

/-- A sweep is set up and answered STARTED; with one in flight the answer is BUSY (R92, R98). -/
def startSweep (kind : SweepKind) (p : Port) (args : List Byte) (s : State) : Served :=
  match slotRangeArgs args with
  | none => refuse s .badValue
  | some (first, last) =>
    if s.sweep.isSome then refuse s .busy
    else ({ s with sweep := some { kind := kind, first := first, last := last, position := first, starter := p, faults := 0 } },
          some (.bare .started))

/-- CLEAR_TALLIES (R92). -/
def execClearTallies (p : Port) (s : State) : Host.Outcome State Fault Refusal :=
  .next (serve .clearTallies p (underLock p (startSweep .clear p)) s)

/-- START_SCRUB (R98). -/
def execStartScrub (p : Port) (s : State) : Host.Outcome State Fault Refusal :=
  .next (serve .startScrub p (startSweep .scrub p) s)

/-! ### The steps and the end of a sweep (R94, R97, R99) -/

/-- The code of a sweep's kind in SWEEP_DONE (R97). -/
def sweepKindNumber : SweepKind → Nat
  | .clear => 0
  | .scrub => 1

/-- The word of SWEEP_DONE (R97). -/
def sweepDoneWord (w : Sweep) (lastDone : Nat) (aborted : Bool) : Nat :=
  lastDone + 1024 * sweepKindNumber w.kind + (if aborted then 2048 else 0) + 4096 * w.faults

/-- The detail word of TALLIES_CLEARED (R97, R100). -/
def talliesClearedDetail (w : Sweep) (lastDone : Nat) (aborted : Bool) : Nat :=
  w.first + 512 * lastDone + 262144 * portNumber w.starter + if aborted then 1048576 else 0

/-- The end of a sweep at its last slot: TALLIES_CLEARED for a clear, SWEEP_DONE to the starter (R97, R99). -/
def finishSweep (w : Sweep) (s : State) : State :=
  let s := match w.kind with
    | .clear => hand s .sweepEngine [plainCondition (cycleNow s) .talliesCleared (talliesClearedDetail w w.last false)]
    | .scrub => s
  post { s with sweep := none } .sweepEngine w.starter .sweepDone (sweepDoneWord w w.last false)

/-- The sweep after a visit: the next position, or its end (R91, R97). -/
def advanceSweep (w : Sweep) (s : State) : State :=
  if w.position < w.last then { s with sweep := some { w with position := w.position + 1 } } else finishSweep w s

/-- The record after a clear step (R94). -/
def clearedRecord (gapCount : Nat) (r : Record) : Record :=
  { r with tallies := .all 0, marks := .all (.all 0), intervals := .all 0, intervalsRated := 0, grades := .all .clean,
           gapStamp := gapCount }

/-- A clear step's visit to one slot (R94). -/
def visitClear (upset : Bool) (w : Sweep) (s : State) : State :=
  let n := w.position
  let sl := disturb upset (slotAt s.table n)
  let s := putSlot s n sl
  if !stateLive sl.state then advanceSweep w s
  else if sl.parityGood then
    advanceSweep w (putSlot s n { sl with record := clearedRecord (gapCountNow s) sl.record })
  else advanceSweep { w with faults := w.faults + 1 } (failAccess s (cycleNow s) n sl 4)

/-- A scrub step's visit to one slot: a failing record becomes FAULTED, a FAULTED slot is counted, failing FREE storage is
rewritten clean (R99). -/
def visitScrub (upset : Bool) (w : Sweep) (s : State) : State :=
  let n := w.position
  let sl := disturb upset (slotAt s.table n)
  let s := putSlot s n sl
  let fault : Sweep := { w with faults := w.faults + 1 }
  if sl.state = .faulted then advanceSweep fault s
  else if sl.parityGood then advanceSweep w s
  else if sl.state = .free then advanceSweep fault (putSlot s n .free)
  else advanceSweep fault (failAccess s (cycleNow s) n sl 5)

/-- Whether the starter's port still waits for the answer STARTED, which comes before any slot is visited (R92, R98). A port has
one request in hand, so its answer is STARTED only until it is given (R157). -/
def startUnanswered (s : State) (w : Sweep) : Bool := (s.ports.get w.starter).answer == some (.bare .started)

/-- Whether a sweep of this kind may visit its next slot (R92, R98). -/
def mayVisit (kind : SweepKind) (w : Sweep) (s : State) : Bool := w.kind == kind && !startUnanswered s w

/-- The next visit of a CLEAR sweep in flight (R92, R94). -/
def stepClear (upset : Bool) (s : State) : State :=
  match s.sweep with
  | some w => if mayVisit .clear w s then visitClear upset w s else s
  | none => s

/-- The next visit of a SCRUB sweep in flight (R98, R99). -/
def stepScrub (upset : Bool) (s : State) : State :=
  match s.sweep with
  | some w => if mayVisit .scrub w s then visitScrub upset w s else s
  | none => s

/-- CLEAR_STEP (R94). -/
def execClearStep (upset : Bool) (s : State) : Host.Outcome State Fault Refusal := .next (whenRunning (stepClear upset) s)

/-- SCRUB_STEP (R99). -/
def execScrubStep (upset : Bool) (s : State) : Host.Outcome State Fault Refusal := .next (whenRunning (stepScrub upset) s)

/-! ### ABORT-SWEEP, READ-SWEEP and soft reset (R100, R101, R103) -/

/-- The last slot done of an aborted sweep, 1023 when no slot was visited (R97, R100). -/
def abortedLast (w : Sweep) : Nat := if w.position = w.first then 1023 else w.position - 1

/-- The record of an aborted sweep: TALLIES_CLEARED for the part done of a clear that has visited a slot (R100). -/
def abortRecords (w : Sweep) (cycle : Word) : List Condition :=
  if w.kind = .clear ∧ w.position ≠ w.first then
    [plainCondition cycle .talliesCleared (talliesClearedDetail w (abortedLast w) true)]
  else []

/-- ABORT-SWEEP: from the starter or the lock holder the sweep stops at the slot boundary and is reported (R100). -/
def abortSweep (p : Port) (s : State) : Served :=
  match s.sweep with
  | none => refuse s .empty
  | some w =>
    if w.starter = p ∨ holdsLock s p = true then
      done (post (handHolding { s with sweep := none } .sweepEngine p (abortRecords w (cycleNow s)))
        .sweepEngine w.starter .sweepDone (sweepDoneWord w (abortedLast w) true))
    else refuse s .notOwner

/-- ABORT_SWEEP (R100). -/
def execAbortSweep (p : Port) (s : State) : Host.Outcome State Fault Refusal :=
  .next (serve .abortSweep p (noArgs (abortSweep p)) s)

/-- The 10 data bytes of READ-SWEEP (R101). -/
def sweepBytes : Option Sweep → List Byte
  | none => leBytes 10 0
  | some w =>
    leBytes 1 (sweepKindNumber w.kind + 1) ++ leBytes 2 w.first ++ leBytes 2 w.last ++ leBytes 2 w.position
      ++ leBytes 1 (portNumber w.starter) ++ leBytes 2 w.faults

/-- READ_SWEEP (R101). -/
def execReadSweep (p : Port) (s : State) : Host.Outcome State Fault Refusal :=
  .next (serve .readSweep p (noArgs (fun s => doneWith s (sweepBytes s.sweep))) s)

/-- SOFT_RESET_SWEEP: the sweep in flight is abandoned without report (R103, R170). -/
def execSoftResetSweep (issuer : Port) (s : State) : Host.Outcome State Fault Refusal :=
  .next (match s.softResets.get issuer with
    | some parts =>
      if parts.sweep then s
      else { s with sweep := none, softResets := s.softResets.set issuer (some { parts with sweep := true }) }
    | none => s)

end Sys2Proof.Machine
end

