-- ==== Sys2Proof/Machine/Timebase.lean ====
section
/-! DEFINITION. The Cycle Monitor: LINE_CYCLE_PULSE, TIMER_EXPIRY, READ_TIMEBASE, SET_TIMEBASE, and the timer's microsecond
(02_line_timebase.md). -/

namespace Sys2Proof.Machine

/-! ### The timer and the cycle event (R18, R19, R20) -/

/-- The timer as a pulse starts or restarts it: deadline L + T (R18). -/
def pulseTimer (m : Monitor) : Timer := { elapsed := 0, deadline := m.cycleLength + m.tolerance }

/-- The timer as an expiry restarts it: deadline L (R18). -/
def expiryTimer (m : Monitor) : Timer := { elapsed := 0, deadline := m.cycleLength }

/-- The running timer, if it runs (R18). -/
def timerOf : Timebase → Option Timer
  | .unlocked => none
  | .acquiring t => some t
  | .locked t => some t
  | .holdover t => some t

/-- The same timebase state with another timer. -/
def withTimer (b : Timebase) (t : Timer) : Timebase :=
  match b with
  | .unlocked => .unlocked
  | .acquiring _ => .acquiring t
  | .locked _ => .locked t
  | .holdover _ => .holdover t

/-- Hands a cycle event, with the count it carries, to its three consumers (R19). -/
def handCycleEvent (s : State) (count : Word) : State :=
  { s with
    table := { s.table with silence := { s.table.silence with events := s.table.silence.events ++ [count] } },
    rating := { s.rating with events := s.rating.events + 1 },
    lock := { s.lock with events := s.lock.events + 1 } }

/-- A cycle event: the cycle count advances by 1 and is handed on (R19). -/
def makeCycleEvent (s : State) : State :=
  handCycleEvent { s with monitor := { s.monitor with cycleCount := s.monitor.cycleCount + 1 } } (s.monitor.cycleCount + 1)

/-- Replaces the Cycle Monitor's state. -/
def setTimebaseState (s : State) (b : Timebase) : State := { s with monitor := { s.monitor with state := b } }

/-- Replaces the synthesized run. -/
def setRun (s : State) (run : Nat) : State := { s with monitor := { s.monitor with run := run } }

/-- Hands a record of the Cycle Monitor to the log, with the cycle count as it stands (R20, R122), as the only record of its
access (notes/assumptions/26). -/
def recordTimebase (s : State) (kind : Kind) (detail : Nat) : State :=
  hand s .cycleMonitor [plainCondition (cycleNow s) kind detail]

/-! ### A pulse in each state (R21 to R24, R26) -/

/-- A pulse in ACQUIRING with elapsed time `e`: below L − T it starts acquisition again, else it confirms the train (R22). -/
def pulseAcquiring (e : Nat) (s : State) : State :=
  if e < s.monitor.cycleLength - s.monitor.tolerance then setTimebaseState s (.acquiring (pulseTimer s.monitor))
  else recordTimebase (makeCycleEvent (setTimebaseState s (.locked (pulseTimer s.monitor)))) .timebaseLocked 0

/-- A pulse in LOCKED with elapsed time `e`: below L − T it is an early mark, else an ordinary line cycle (R23, R24). -/
def pulseLocked (e : Nat) (s : State) : State :=
  let t := makeCycleEvent (setTimebaseState s (.locked (pulseTimer s.monitor)))
  if e < s.monitor.cycleLength - s.monitor.tolerance then
    recordTimebase { t with monitor := { t.monitor with earlyMarks := satAdd max32 t.monitor.earlyMarks 1 } } .markEarly e
  else t

/-- A pulse in HOLDOVER with elapsed time `e`: at most T it replaces the last synthesized event, else it makes a cycle event;
either way the monitor is LOCKED (R26). -/
def pulseHoldover (e : Nat) (s : State) : State :=
  let run := s.monitor.run
  let t := setRun (setTimebaseState s (.locked (pulseTimer s.monitor))) 0
  if e ≤ s.monitor.tolerance then recordTimebase t .timebaseLocked (run + 256)
  else recordTimebase (makeCycleEvent t) .timebaseLocked run

/-- The Cycle Monitor takes a pulse that comes `dt` microseconds after the timer's present count. Past the deadline the expiry
comes first, so no such pulse takes place (R17, R18, notes/assumptions/4). -/
def takePulse (dt : Nat) (s : State) : State :=
  match s.monitor.state with
  | .unlocked => setTimebaseState s (.acquiring (pulseTimer s.monitor))
  | .acquiring t => if t.elapsed + dt ≤ t.deadline then pulseAcquiring (t.elapsed + dt) s else s
  | .locked t => if t.elapsed + dt ≤ t.deadline then pulseLocked (t.elapsed + dt) s else s
  | .holdover t => if t.elapsed + dt ≤ t.deadline then pulseHoldover (t.elapsed + dt) s else s

/-- LINE_CYCLE_PULSE (R17). -/
def execLineCyclePulse (dt : Nat) (s : State) : Host.Outcome State Fault Refusal := .next (whenRunning (takePulse dt) s)

/-! ### An expiry in each state (R22, R25) -/

/-- The monitor enters UNLOCKED: the timer stops and the run becomes 0 (R21). -/
def enterUnlocked (s : State) : State := setRun (setTimebaseState s .unlocked) 0

/-- The end of holdover when the run has reached the limit: UNLOCKED with TIMEBASE_LOST, detail 1 (R25). That the record is an
access of its own, apart from a TIMEBASE_HOLDOVER of the same expiry, is the model's choice (notes/assumptions/26). -/
def endHoldoverAtLimit (s : State) : State :=
  if s.monitor.run < s.monitor.holdoverLimit then s else recordTimebase (enterUnlocked s) .timebaseLost 1

/-- An expiry in LOCKED: HOLDOVER with a synthesized cycle event, run 1 and TIMEBASE_HOLDOVER (R25); at a holdover limit of 1
the same expiry also ends the holdover, with TIMEBASE_LOST handed over apart (notes/assumptions/26). -/
def expireLocked (s : State) : State :=
  endHoldoverAtLimit (recordTimebase (makeCycleEvent (setRun (setTimebaseState s (.holdover (expiryTimer s.monitor))) 1))
    .timebaseHoldover s.monitor.holdoverLimit)

/-- An expiry in HOLDOVER: a synthesized cycle event and run + 1 (R25). -/
def expireHoldover (s : State) : State :=
  endHoldoverAtLimit (makeCycleEvent (setRun (setTimebaseState s (.holdover (expiryTimer s.monitor))) (s.monitor.run + 1)))

/-- The local cycle timer reaches its deadline (R18, R22, R25). -/
def takeExpiry (s : State) : State :=
  match s.monitor.state with
  | .unlocked => s
  | .acquiring _ => enterUnlocked s
  | .locked _ => expireLocked s
  | .holdover _ => expireHoldover s

/-- TIMER_EXPIRY (R18). -/
def execTimerExpiry (s : State) : Host.Outcome State Fault Refusal := .next (whenRunning takeExpiry s)

/-! ### The passing of time -/

/-- The timer counts `dt` microseconds, as far as its deadline (R18). -/
def advanceTimer (dt : Nat) (b : Timebase) : Timebase :=
  match timerOf b with
  | some t => withTimer b { t with elapsed := min t.deadline (t.elapsed + dt) }
  | none => b

/-- A microsecond of the 25 MHz reference passes while no command waits (R17, notes/assumptions/3). -/
def tickMicrosecond (s : State) : State :=
  { s with monitor := { s.monitor with state := advanceTimer 1 s.monitor.state } }

/-! ### SET-TIMEBASE and READ-TIMEBASE (R28, R30) -/

/-- The parameters of SET-TIMEBASE, L, T and holdover limit, in their ranges (R28). -/
def timebaseArgs (args : List Byte) : Option (Nat × Nat × Nat) :=
  let l := fieldAt args 0 2
  let t := fieldAt args 2 2
  let limit := fieldAt args 4 1
  if args.length = 5 ∧ 50 ≤ l ∧ 1 ≤ t ∧ t ≤ l / 4 ∧ limit ≠ 0 then some (l, t, limit) else none

/-- The records of SET-TIMEBASE: TIMEBASE_LOST, detail 2, from LOCKED or HOLDOVER (R28). -/
def timebaseLostRecords (s : State) : List Condition :=
  match s.monitor.state with
  | .locked _ | .holdover _ => [plainCondition (cycleNow s) .timebaseLost 2]
  | .unlocked | .acquiring _ => []

/-- SET-TIMEBASE from the holder: the parameters are installed and acquisition starts again (R28). -/
def setTimebase (p : Port) (args : List Byte) (s : State) : Served :=
  match timebaseArgs args with
  | none => refuse s .badValue
  | some (l, t, limit) =>
    done (handHolding
      { s with monitor := { s.monitor with state := .unlocked, run := 0, cycleLength := l, tolerance := t,
                                           holdoverLimit := limit } }
      .cycleMonitor p (timebaseLostRecords s))

/-- SET_TIMEBASE (R28). -/
def execSetTimebase (p : Port) (s : State) : Host.Outcome State Fault Refusal :=
  .next (serve .setTimebase p (underLock p (setTimebase p)) s)

/-- The code of a timebase state (R30). -/
def timebaseNumber : Timebase → Nat
  | .unlocked => 0
  | .acquiring _ => 1
  | .locked _ => 2
  | .holdover _ => 3

/-- The 19 data bytes of READ-TIMEBASE (R30). -/
def timebaseBytes (m : Monitor) : List Byte :=
  leBytes 1 (timebaseNumber m.state) ++ leBytes 4 m.cycleCount.toNat ++ leBytes 2 m.cycleLength ++ leBytes 2 m.tolerance
    ++ leBytes 1 m.holdoverLimit ++ leBytes 4 m.earlyMarks ++ leBytes 1 m.run
    ++ leBytes 4 (match timerOf m.state with
        | some t => t.elapsed
        | none => 0)

/-- READ-TIMEBASE's snapshot, `dt` microseconds after the timer's present count (R30, notes/assumptions/4). -/
def readTimebase (dt : Nat) (s : State) : Served :=
  let m := { s.monitor with state := advanceTimer dt s.monitor.state }
  doneWith { s with monitor := m } (timebaseBytes m)

/-- READ_TIMEBASE (R30). -/
def execReadTimebase (p : Port) (dt : Nat) (s : State) : Host.Outcome State Fault Refusal :=
  .next (serve .readTimebase p (noArgs (readTimebase dt)) s)

end Sys2Proof.Machine
end

