-- ==== Sys2Proof/Machine/Watch.lean ====
section
/-! DEFINITION. The Watch Block and the Capture Buffer: WATCH_HANDOFF, ARM_WATCH, DISARM_WATCH, READ_WATCH, READ_CAPTURE,
RELEASE_CAPTURE, PORT_RESET_WATCH, SOFT_RESET_WATCH (08_watch_units_and_the_capture_buffer.md). -/

namespace Sys2Proof.Machine

/-- Replaces a watch unit. -/
def setUnit (s : State) (u : UnitId) (w : WatchUnit) : State :=
  { s with watch := { s.watch with units := s.watch.units.set u w } }

/-- Replaces the Capture Buffer. -/
def setCapture (s : State) (c : Option Capture) : State := { s with watch := { s.watch with capture := c } }

/-! ### Matching and counting (R142, R143) -/

/-- Whether a tag lies within a range with invert clear, or outside it with invert set (R142). -/
def tagMatches (low high : Half) (invert : Bool) (tag : Half) : Bool :=
  (decide (low ≤ tag) && decide (tag ≤ high)) != invert

/-- Whether a unit's range, invert flag and mask match a candidate hit (R142). -/
def unitMatches (w : WatchUnit) (tag : Half) (c : Tally) : Bool :=
  tagMatches w.low w.high w.invert tag && w.mask.getLsbD (tallyNumber c)

/-- Whether a unit counts candidate hits of a category for a tag: ARMED SINGLE by itself, ARMED PAIR-EVEN with its partner
matching too, PAIR-ODD never (R142). -/
def unitCounts (units : PerUnit WatchUnit) (u : UnitId) (tag : Half) (c : Tally) : Bool :=
  let w := units.get u
  w.state == .armed && unitMatches w tag c &&
    match w.role with
    | .single => true
    | .pairEven => unitMatches (units.get (partnerOf u)) tag c
    | .pairOdd => false

/-- A unit's remaining count after the categories of a hand-off, in tally order, and the category that brought it to 0, with
which counting stops (R143). -/
def countHits (units : PerUnit WatchUnit) (u : UnitId) (tag : Half) (incs : Nine Nat) : List Tally → Nat → Nat × Option Tally
  | [], remaining => (remaining, none)
  | c :: rest, remaining =>
    let k := if unitCounts units u tag c then incs.get c else 0
    if 0 < k ∧ remaining ≤ k then (0, some c) else countHits units u tag incs rest (remaining - k)

/-- What a hand-off counts against a unit (R143). -/
def hitsOf (units : PerUnit WatchUnit) (u : UnitId) (h : Handoff) : Nat × Option Tally :=
  countHits units u h.tag h.incs allTallies (units.get u).remaining

/-! ### Captures (R148, R149, R150) -/

/-- The capture entry of a hand-off (R189). -/
def captureEntry (h : Handoff) : CaptureEntry :=
  { slot := h.slot, tag := h.tag, seq := h.seq, path := h.path, tick := h.tick, cats := classificationSet h.incs }

/-- The word of CAPTURE_DONE (R149). -/
def captureDoneWord (c : Capture) (early : Bool) : Nat :=
  c.entries.length + 256 * unitNumber c.source + if early then 1024 else 0

/-- A capture becomes FULL: CAPTURE_DONE goes to the owner, and the owner's CAPTURE_DONE latch is set (R149, R150). -/
def completeCapture (c : Capture) (early : Bool) (s : State) : State :=
  signal (post (setCapture s (some { c with full := true })) .captureBuffer c.owner .captureDone (captureDoneWord c early))
    c.owner .captureDone

/-- The buffer with a new entry, FULL when the entries reach n (R149). -/
def extendCapture (c : Capture) (h : Handoff) (s : State) : State :=
  let c := { c with entries := c.entries ++ [captureEntry h] }
  if c.entries.length < c.length then setCapture s (some c) else completeCapture c false s

/-- A hand-off is offered to a FILLING buffer, which records it when its tag matches (R149). -/
def offerToCapture (h : Handoff) (s : State) : State :=
  match s.watch.capture with
  | some c => if !c.full && tagMatches c.low c.high c.invert h.tag then extendCapture c h s else s
  | none => s

/-- A FILLING capture whose source unit is changed or freed ends early (R150). That the command's answer does not wait for the
CAPTURE_DONE latch is the model's choice (notes/assumptions/29). -/
def endCaptureOf (u : UnitId) (s : State) : State :=
  match s.watch.capture with
  | some c => if !c.full && c.source == u then completeCapture c true s else s
  | none => s

/-- The capture outcome of a firing: 0 no capture length, 1 started, 2 refused (R145, R148). -/
def captureOutcome (w : WatchUnit) (s : State) : Nat :=
  if w.captureLength = 0 then 0 else if s.watch.capture.isNone then 1 else 2

/-- A firing unit with a capture length starts a capture in an EMPTY buffer, its first entry the firing frame (R148). -/
def startCapture (u : UnitId) (w : WatchUnit) (owner : Port) (h : Handoff) (s : State) : State :=
  extendCapture
    { full := false, owner := owner, source := u, length := w.captureLength, low := w.low, high := w.high, invert := w.invert,
      entries := [] } h s

/-! ### Firing (R144, R145) -/

/-- The detail word of WATCH_FIRED (R145). -/
def watchFiredDetail (u : UnitId) (c : Tally) (outcome : Nat) : Nat := unitNumber u + 16 * tallyNumber c + 256 * outcome

/-- A unit that has fired, with its firing part (R144). -/
def firedUnit (w : WatchUnit) (c : Tally) (h : Handoff) : WatchUnit :=
  { w with state := .fired, remaining := 0,
           firing := some { category := c, slot := h.slot, tag := h.tag, cycle := h.cycle } }

/-- The WATCH_FIRED record of a firing, with the hand-off's snapshot and history (R145). -/
def watchFiredRecord (u : UnitId) (c : Tally) (h : Handoff) (outcome : Nat) : Condition :=
  { slotCondition h.cycle .watchFired h.slot h.tag (watchFiredDetail u c outcome) with
    snapshot := h.snapshot, leadIn := h.history }

/-- A unit and, for a PAIR-EVEN unit, its partner become FIRED (R144). -/
def markFired (u : UnitId) (c : Tally) (h : Handoff) (s : State) : State :=
  let w := s.watch.units.get u
  let t := setUnit s u (firedUnit w c h)
  if w.role = .pairEven then setUnit t (partnerOf u) { t.watch.units.get (partnerOf u) with state := .fired } else t

/-- One firing: the unit becomes FIRED, its capture is decided, its notice goes to its owner; the record is given back to be
handed over with those of the other firings (R144, R145, R148). -/
def fireUnit (u : UnitId) (c : Tally) (h : Handoff) (s : State) : State × Condition :=
  let w := s.watch.units.get u
  let outcome := captureOutcome w s
  let s := markFired u c h s
  match w.owner with
  | none => (s, watchFiredRecord u c h outcome)
  | some owner =>
    let s := if outcome = 1 then startCapture u w owner h s else s
    (post s .watchBlock owner .watchFired (watchFiredDetail u c outcome + 65536 * h.slot), watchFiredRecord u c h outcome)

/-- Counts the hand-off's hits against a unit that does not fire (R143). -/
def countUnit (u : UnitId) (remaining : Nat) (s : State) : State :=
  setUnit s u { s.watch.units.get u with remaining := remaining }

/-- The units of a hand-off in unit order: `units` are the units as the hand-off found them; the firings' records are
gathered in order (R143, R144). -/
def serveUnits (units : PerUnit WatchUnit) (h : Handoff) : List UnitId → State → State × List Condition
  | [], s => (s, [])
  | u :: rest, s =>
    match hitsOf units u h with
    | (remaining, none) => serveUnits units h rest (countUnit u remaining s)
    | (_, some c) =>
      let r := fireUnit u c h s
      let t := serveUnits units h rest r.1
      (t.1, r.2 :: t.2)

/-- The taking of one hand-off: capture, hits, firings and their records (R141). -/
def takeHandoff (h : Handoff) (s : State) : State :=
  let s := offerToCapture h s
  let r := serveUnits s.watch.units h allUnits s
  hand r.1 .watchBlock r.2

/-- The Watch Block takes the oldest hand-off made (R80, R141). -/
def stepHandoff (s : State) : State :=
  match s.watch.handoffs with
  | [] => s
  | h :: rest => takeHandoff h { s with watch := { s.watch with handoffs := rest } }

/-- WATCH_HANDOFF (R141). -/
def execWatchHandoff (s : State) : Host.Outcome State Fault Refusal := .next (whenRunning stepHandoff s)

/-! ### ARM-WATCH and DISARM-WATCH (R139, R140, R146) -/

/-- Whether a unit is FREE or owned by a port (R139). -/
def unitOpenTo (w : WatchUnit) (p : Port) : Bool := w.state == .free || w.owner == some p

/-- A unit armed afresh for a port with its own settings (R140). -/
def armedUnit (p : Port) (a : ArmArgs) (role : Role) : WatchUnit :=
  { state := .armed, owner := some p, role := role, low := a.own.low, high := a.own.high, invert := a.own.invert,
    mask := a.own.mask, preset := a.preset, remaining := a.preset, captureLength := a.captureLength, firing := none }

/-- A partner armed with its range, invert flag and mask (R138, R140). -/
def armedPartner (p : Port) (m : Matching) : WatchUnit :=
  { WatchUnit.free with state := .armed, owner := some p, role := .pairOdd, low := m.low, high := m.high, invert := m.invert,
                        mask := m.mask }

/-- ARM-WATCH taken: the unit is armed; with the pair flag the partner is taken over, without it a former partner becomes
FREE; a FILLING capture of a unit that is changed ends (R140, R150). -/
def armUnit (p : Port) (a : ArmArgs) (s : State) : State :=
  let wasEven := (s.watch.units.get a.unit).role == .pairEven
  let s := endCaptureOf a.unit s
  match a.partner with
  | some m => setUnit (setUnit (endCaptureOf (partnerOf a.unit) s) a.unit (armedUnit p a .pairEven)) (partnerOf a.unit)
      (armedPartner p m)
  | none =>
    let t := setUnit s a.unit (armedUnit p a .single)
    if wasEven then setUnit t (partnerOf a.unit) .free else t

/-- ARM-WATCH: BAD_VALUE, NOT_OWNER, BUSY, in that order (R139). -/
def armWatch (p : Port) (args : List Byte) (s : State) : Served :=
  match armArgs args with
  | none => refuse s .badValue
  | some a =>
    if !unitOpenTo (s.watch.units.get a.unit) p
        || (a.partner.isSome && !unitOpenTo (s.watch.units.get (partnerOf a.unit)) p) then refuse s .notOwner
    else if (s.watch.units.get a.unit).role = .pairOdd then refuse s .busy
    else done (armUnit p a s)

/-- ARM_WATCH (R139, R140). -/
def execArmWatch (p : Port) (s : State) : Host.Outcome State Fault Refusal := .next (serve .armWatch p (armWatch p) s)

/-- The one argument of a command that names a unit. -/
def oneUnitArg (args : List Byte) : Option UnitId := if args.length = 1 then unitOfNumber (fieldAt args 0 1) else none

/-- A unit becomes FREE, its partner with it when it is of a pair; a FILLING capture of either ends early (R146, R150). -/
def freeUnit (u : UnitId) (s : State) : State :=
  if (s.watch.units.get u).role = .single then setUnit (endCaptureOf u s) u .free
  else setUnit (setUnit (endCaptureOf (partnerOf u) (endCaptureOf u s)) u .free) (partnerOf u) .free

/-- DISARM-WATCH (R146). -/
def disarmWatch (p : Port) (args : List Byte) (s : State) : Served :=
  match oneUnitArg args with
  | none => refuse s .badValue
  | some u =>
    if (s.watch.units.get u).state = .free then refuse s .empty
    else if (s.watch.units.get u).owner = some p then done (freeUnit u s)
    else refuse s .notOwner

/-- DISARM_WATCH (R146). -/
def execDisarmWatch (p : Port) (s : State) : Host.Outcome State Fault Refusal :=
  .next (serve .disarmWatch p (disarmWatch p) s)

/-! ### Reading (R147, R152) and releasing (R151) -/

/-- The code of a unit state (R147). -/
def unitStateNumber : UnitState → Nat
  | .free => 0
  | .armed => 1
  | .fired => 2

/-- The code of a role (R147). -/
def roleNumber : Role → Nat
  | .single => 0
  | .pairEven => 1
  | .pairOdd => 2

/-- The firing part in READ-WATCH, nine bytes; category 255 when absent (R147). -/
def firingBytes : Option Firing → List Byte
  | some f => leBytes 1 (tallyNumber f.category) ++ leBytes 2 f.slot ++ leBytes 2 f.tag.toNat ++ leBytes 4 f.cycle.toNat
  | none => leBytes 1 255 ++ leBytes 8 0

/-- The 24 data bytes of READ-WATCH (R147). For a FREE unit the fields after the owner are those of `WatchUnit.free`; a
PAIR-ODD unit has no preset, remaining count, capture length or firing part of its own. -/
def unitBytes (w : WatchUnit) : List Byte :=
  let w := if w.state = .free then WatchUnit.free else w
  let odd := w.role == .pairOdd
  leBytes 1 (unitStateNumber w.state) ++ leBytes 1 ((w.owner.map portNumber).getD 255) ++ leBytes 1 (roleNumber w.role)
    ++ leBytes 2 w.low.toNat ++ leBytes 2 w.high.toNat ++ [flagByte w.invert] ++ leBytes 2 w.mask.toNat
    ++ leBytes 2 (if odd then 0 else w.preset) ++ leBytes 2 (if odd then 0 else w.remaining)
    ++ leBytes 1 (if odd then 0 else w.captureLength) ++ firingBytes (if odd then none else w.firing)

/-- READ-WATCH (R147). -/
def readWatch (args : List Byte) (s : State) : Served :=
  match oneUnitArg args with
  | none => refuse s .badValue
  | some u => doneWith s (unitBytes (s.watch.units.get u))

/-- READ_WATCH (R147). -/
def execReadWatch (p : Port) (s : State) : Host.Outcome State Fault Refusal := .next (serve .readWatch p readWatch s)

/-- The data of READ-CAPTURE: entries from a first index on, up to a maximum count (R152). -/
def captureBytes (c : Capture) (first limit : Nat) : List Byte :=
  let entries := (c.entries.drop first).take limit
  leBytes 1 (if c.full then 2 else 1) ++ leBytes 1 (unitNumber c.source) ++ leBytes 1 c.length ++ leBytes 1 c.entries.length
    ++ leBytes 1 entries.length ++ entries.flatMap captureEntryBytes

/-- READ-CAPTURE (R152). -/
def readCapture (p : Port) (args : List Byte) (s : State) : Served :=
  let first := fieldAt args 0 1
  let limit := fieldAt args 1 1
  if args.length = 2 ∧ first ≤ 63 ∧ 1 ≤ limit ∧ limit ≤ 16 then
    match s.watch.capture with
    | none => refuse s .empty
    | some c => if c.owner = p then doneWith s (captureBytes c first limit) else refuse s .notOwner
  else refuse s .badValue

/-- READ_CAPTURE (R152). -/
def execReadCapture (p : Port) (s : State) : Host.Outcome State Fault Refusal := .next (serve .readCapture p (readCapture p) s)

/-- RELEASE-CAPTURE (R151). -/
def releaseCapture (p : Port) (s : State) : Served :=
  match s.watch.capture with
  | none => refuse s .empty
  | some c => if c.owner = p then done (setCapture s none) else refuse s .notOwner

/-- RELEASE_CAPTURE (R151). -/
def execReleaseCapture (p : Port) (s : State) : Host.Outcome State Fault Refusal :=
  .next (serve .releaseCapture p (noArgs (releaseCapture p)) s)

/-! ### Resets (R153, R154) -/

/-- A unit after the port reset of a port: FREE when the port owned it (R154). -/
def unitAfterPortReset (p : Port) (w : WatchUnit) : WatchUnit := if w.owner = some p then .free else w

/-- The buffer after the port reset of a port: EMPTY when the port owned it (R154). -/
def captureAfterPortReset (p : Port) : Option Capture → Option Capture
  | some c => if c.owner = p then none else some c
  | none => none

/-- The Watch Block's part of a port reset: the port's units become FREE, a buffer it owns EMPTY (R154). -/
def resetWatchPort (p : Port) (w : Watch) : Watch :=
  { w with
    units := { w0 := unitAfterPortReset p w.units.w0, w1 := unitAfterPortReset p w.units.w1,
               w2 := unitAfterPortReset p w.units.w2, w3 := unitAfterPortReset p w.units.w3 },
    capture := captureAfterPortReset p w.capture }

/-- PORT_RESET_WATCH (R154, R169). -/
def execPortResetWatch (p : Port) (s : State) : Host.Outcome State Fault Refusal :=
  .next (match s.portResets.get p with
    | some parts =>
      if parts.watch then s
      else { s with watch := resetWatchPort p s.watch,
                    portResets := s.portResets.set p (some { parts with watch := true }) }
    | none => s)

/-- SOFT_RESET_WATCH: every unit becomes FREE and the buffer EMPTY; hand-offs not yet taken stay to be taken (R55, R153,
R170). -/
def execSoftResetWatch (issuer : Port) (s : State) : Host.Outcome State Fault Refusal :=
  .next (match s.softResets.get issuer with
    | some parts =>
      if parts.watch then s
      else { s with watch := { s.watch with units := .all .free, capture := none },
                    softResets := s.softResets.set issuer (some { parts with watch := true }) }
    | none => s)

end Sys2Proof.Machine
end

