-- ==== Sys2Proof/Machine/Dispatch.lean ====
section
/-! DEFINITION. One arm for each command: its meaning. -/

namespace Sys2Proof.Machine

/-- The effect of a command on everything but the queue of commands. -/
def exec (i : Instr) (s : State) : Host.Outcome State Fault Refusal :=
  match i with
  | .resetAssert => Sys2Proof.Machine.execResetAssert s
  | .resetRelease => Sys2Proof.Machine.execResetRelease s
  | .initEnd strobe => Sys2Proof.Machine.execInitEnd strobe s
  | .descriptorRun bytes => Sys2Proof.Machine.execDescriptorRun bytes s
  | .linkApply => Sys2Proof.Machine.execLinkApply s
  | .lineCyclePulse dt => Sys2Proof.Machine.execLineCyclePulse dt s
  | .timerExpiry => Sys2Proof.Machine.execTimerExpiry s
  | .silenceCheck u => Sys2Proof.Machine.execSilenceCheck u s
  | .ratingCycleEvent => Sys2Proof.Machine.execRatingCycleEvent s
  | .ratingDue => Sys2Proof.Machine.execRatingDue s
  | .ratingStep u => Sys2Proof.Machine.execRatingStep u s
  | .lockCycleEvent => Sys2Proof.Machine.execLockCycleEvent s
  | .leaseExpiry => Sys2Proof.Machine.execLeaseExpiry s
  | .frameTake u => Sys2Proof.Machine.execFrameTake u s
  | .watchHandoff => Sys2Proof.Machine.execWatchHandoff s
  | .clearStep upset => Sys2Proof.Machine.execClearStep upset s
  | .scrubStep upset => Sys2Proof.Machine.execScrubStep upset s
  | .markVisit p upset => Sys2Proof.Machine.execMarkVisit p upset s
  | .logAppend src => Sys2Proof.Machine.execLogAppend src s
  | .noticePlace src => Sys2Proof.Machine.execNoticePlace src s
  | .statusSourceSet p l => Sys2Proof.Machine.execStatusSourceSet p l s
  | .requestComplete p bytes => Sys2Proof.Machine.execRequestComplete p bytes s
  | .blockAnswer p => Sys2Proof.Machine.execBlockAnswer p s
  | .selectRelease p sent => Sys2Proof.Machine.execSelectRelease p sent s
  | .selectRefused p => Sys2Proof.Machine.execSelectRefused p s
  | .identify p => Sys2Proof.Machine.execIdentify p s
  | .readStatus p => Sys2Proof.Machine.execReadStatus p s
  | .clearStatus p => Sys2Proof.Machine.execClearStatus p s
  | .setAttention p => Sys2Proof.Machine.execSetAttention p s
  | .rearmAttention p => Sys2Proof.Machine.execRearmAttention p s
  | .portReset p => Sys2Proof.Machine.execPortReset p s
  | .portResetNotices p => Sys2Proof.Machine.execPortResetNotices p s
  | .portResetMarks p => Sys2Proof.Machine.execPortResetMarks p s
  | .portResetLog p => Sys2Proof.Machine.execPortResetLog p s
  | .portResetLock p => Sys2Proof.Machine.execPortResetLock p s
  | .portResetWatch p => Sys2Proof.Machine.execPortResetWatch p s
  | .softReset p => Sys2Proof.Machine.execSoftReset p s
  | .softResetNotices issuer => Sys2Proof.Machine.execSoftResetNotices issuer s
  | .softResetLock issuer => Sys2Proof.Machine.execSoftResetLock issuer s
  | .softResetIntake issuer late => Sys2Proof.Machine.execSoftResetIntake issuer late s
  | .softResetSweep issuer => Sys2Proof.Machine.execSoftResetSweep issuer s
  | .softResetRating issuer => Sys2Proof.Machine.execSoftResetRating issuer s
  | .softResetWatch issuer => Sys2Proof.Machine.execSoftResetWatch issuer s
  | .softResetPort issuer q => Sys2Proof.Machine.execSoftResetPort issuer q s
  | .softResetLog issuer => Sys2Proof.Machine.execSoftResetLog issuer s
  | .softResetVisit issuer upsets => Sys2Proof.Machine.execSoftResetVisit issuer upsets s
  | .readIntake p => Sys2Proof.Machine.execReadIntake p s
  | .readTimebase p dt => Sys2Proof.Machine.execReadTimebase p dt s
  | .setTimebase p => Sys2Proof.Machine.execSetTimebase p s
  | .defineStream p => Sys2Proof.Machine.execDefineStream p s
  | .redefineStream p upset => Sys2Proof.Machine.execRedefineStream p upset s
  | .retireStream p => Sys2Proof.Machine.execRetireStream p s
  | .readDefinition p upset => Sys2Proof.Machine.execReadDefinition p upset s
  | .listStreams p => Sys2Proof.Machine.execListStreams p s
  | .readStrays p => Sys2Proof.Machine.execReadStrays p s
  | .clearStrays p => Sys2Proof.Machine.execClearStrays p s
  | .readWindow p upset => Sys2Proof.Machine.execReadWindow p upset s
  | .mark p => Sys2Proof.Machine.execMark p s
  | .readSheet p upset => Sys2Proof.Machine.execReadSheet p upset s
  | .clearTallies p => Sys2Proof.Machine.execClearTallies p s
  | .startScrub p => Sys2Proof.Machine.execStartScrub p s
  | .abortSweep p => Sys2Proof.Machine.execAbortSweep p s
  | .readSweep p => Sys2Proof.Machine.execReadSweep p s
  | .setGrading p upset => Sys2Proof.Machine.execSetGrading p upset s
  | .setRating p => Sys2Proof.Machine.execSetRating p s
  | .readGrades p upset => Sys2Proof.Machine.execReadGrades p upset s
  | .readRating p => Sys2Proof.Machine.execReadRating p s
  | .readLog p => Sys2Proof.Machine.execReadLog p s
  | .seekLog p => Sys2Proof.Machine.execSeekLog p s
  | .eraseLog p => Sys2Proof.Machine.execEraseLog p s
  | .setSubscription p => Sys2Proof.Machine.execSetSubscription p s
  | .readLogStatus p => Sys2Proof.Machine.execReadLogStatus p s
  | .armWatch p => Sys2Proof.Machine.execArmWatch p s
  | .disarmWatch p => Sys2Proof.Machine.execDisarmWatch p s
  | .readWatch p => Sys2Proof.Machine.execReadWatch p s
  | .readCapture p => Sys2Proof.Machine.execReadCapture p s
  | .releaseCapture p => Sys2Proof.Machine.execReleaseCapture p s
  | .claimLock p => Sys2Proof.Machine.execClaimLock p s
  | .releaseLock p => Sys2Proof.Machine.execReleaseLock p s
  | .setLease p => Sys2Proof.Machine.execSetLease p s
  | .readLock p => Sys2Proof.Machine.execReadLock p s
  | .postNote p => Sys2Proof.Machine.execPostNote p s
  | .peekNotice p => Sys2Proof.Machine.execPeekNotice p s
  | .takeNotice p => Sys2Proof.Machine.execTakeNotice p s
  | .flushNotices p => Sys2Proof.Machine.execFlushNotices p s

end Sys2Proof.Machine
end

