-- ==== Sys2Proof/WellFormed.lean ====
section
/-! DEFINITION. Which operands a command can carry: what the inputs of the part can bring about. The meanings are total and do
not depend on these checks; a well-formed command is one that the outside can produce. -/

namespace Sys2Proof

/-- A run of the link has at least one byte, since the strobe is asserted for at least one (R1). -/
def wellFormedRun (bytes : List Byte) : Bool := !bytes.isEmpty

/-- No timer deadline lies beyond the largest L plus the largest T (R18, R28). -/
def wellFormedElapsed (dt : Nat) : Bool := dt ≤ 65535 + 16383

/-- The bytes shifted in up to a request's completion: at most the longest frame (R156). -/
def wellFormedShifted (bytes : List Byte) : Bool := bytes.length ≤ 72

/-- A response frame has at most 250 data bytes and three others (R161). -/
def wellFormedSent (sent : Nat) : Bool := sent ≤ 253

/-- Slots are numbered 0..511 (R32), each named once. -/
def wellFormedSlots (slots : List Nat) : Bool := slots.all (· < 512) && slots.Pairwise (· ≠ ·)

/-- The operands of a command are ones that the part's inputs can produce. -/
def Instr.wellFormed : Instr → Bool
  | .descriptorRun bytes => wellFormedRun bytes
  | .lineCyclePulse dt => wellFormedElapsed dt
  | .readTimebase _ dt => wellFormedElapsed dt
  | .requestComplete _ bytes => wellFormedShifted bytes
  | .selectRelease _ sent => wellFormedSent sent
  | .softResetVisit _ upsets => wellFormedSlots upsets
  | .resetAssert | .resetRelease | .initEnd _ | .linkApply | .timerExpiry | .silenceCheck _ | .ratingCycleEvent | .ratingDue
  | .ratingStep _ | .lockCycleEvent | .leaseExpiry | .frameTake _ | .watchHandoff | .clearStep _ | .scrubStep _
  | .markVisit _ _ | .logAppend _ | .noticePlace _ | .statusSourceSet _ _ | .blockAnswer _ | .selectRefused _
  | .identify _ | .readStatus _ | .clearStatus _ | .setAttention _ | .rearmAttention _
  | .portReset _ | .portResetNotices _ | .portResetMarks _ | .portResetLog _ | .portResetLock _ | .portResetWatch _
  | .softReset _ | .softResetNotices _ | .softResetLock _ | .softResetIntake _ _ | .softResetSweep _ | .softResetRating _
  | .softResetWatch _ | .softResetPort _ _ | .softResetLog _
  | .readIntake _ | .setTimebase _ | .defineStream _ | .redefineStream _ _ | .retireStream _ | .readDefinition _ _
  | .listStreams _ | .readStrays _ | .clearStrays _ | .readWindow _ _ | .mark _ | .readSheet _ _
  | .clearTallies _ | .startScrub _ | .abortSweep _ | .readSweep _ | .setGrading _ _ | .setRating _ | .readGrades _ _
  | .readRating _ | .readLog _ | .seekLog _ | .eraseLog _ | .setSubscription _ | .readLogStatus _
  | .armWatch _ | .disarmWatch _ | .readWatch _ | .readCapture _ | .releaseCapture _
  | .claimLock _ | .releaseLock _ | .setLease _ | .readLock _ | .postNote _ | .peekNotice _ | .takeNotice _
  | .flushNotices _ => true

end Sys2Proof
end

