-- ==== Sys2Proof/Safety.lean ====
section
/-! DEFINITION. What a safe run is: the machine always answers a next state, and every state obeys the laws that the spec states
of every state. The words in which the statements speak of requests, answers and command bytes stand here too. -/

namespace Sys2Proof.Safety

open Sys2Proof.Machine

/-! ### Requests and answers -/

/-- A request with this command code and these arguments is in hand at a port, and its block has not taken it (R157). -/
def InHand (s : State) (p : Port) (code : Byte) (args : List Byte) : Prop :=
  (s.ports.get p).state = .executing
    ∧ ∃ number, (s.ports.get p).request = some { code := code, number := number, args := args, taken := false }

/-- The same state with the request at a port taken by its block. -/
def taken (s : State) (p : Port) : State :=
  putPort s p { s.ports.get p with request := (s.ports.get p).request.map (fun r => { r with taken := true }) }

/-- The same state with the request at a port taken and its block's answer formed. -/
def answered (s : State) (p : Port) (ans : Answer) : State :=
  putPort s p { s.ports.get p with
    request := (s.ports.get p).request.map (fun r => { r with taken := true }), answer := some ans }

/-- A port holds the tally lock (R172). -/
def Holds (s : State) (p : Port) : Prop := ∃ lease, s.lock.holding = some { port := p, lease := lease }

/-- Start-up is over: the blocks take events (R15, R17, R53, R162). -/
def Running (s : State) : Prop := s.startup = .running

/-- One more, saturating at 4,294,967,295. -/
def up1 (n : Nat) : Nat := min 4294967295 (n + 1)

/-- The append of the one record of an event or access. -/
def appendOf (src : LogSource) (c : Condition) : Append := { source := src, condition := c, last := true, holds := none }

/-- The append of the one record of a command, whose answer waits for it (notes/assumptions/11). -/
def commandAppend (src : LogSource) (p : Port) (c : Condition) : Append :=
  { source := src, condition := c, last := true, holds := some p }

/-- A record without slot, tag, snapshot and lead-in (R120). -/
def bareRecord (cycle : Word) (kind : Kind) (urgent : Bool) (detail : Nat) : Condition :=
  { cycle := cycle, kind := kind, urgent := urgent, subject := none, detail := BitVec.ofNat 32 detail, snapshot := none,
    leadIn := [] }

/-- A record with slot and tag, without snapshot and lead-in (R120). -/
def slotRecord (cycle : Word) (kind : Kind) (urgent : Bool) (n : Nat) (tag : Half) (detail : Nat) : Condition :=
  { bareRecord cycle kind urgent detail with subject := some { slot := n, tag := tag } }

/-- A record with slot, tag, and the snapshot and lead-in of a stream record (R121). -/
def viewRecord (cycle : Word) (kind : Kind) (urgent : Bool) (n : Nat) (tag : Half) (r : Record) (detail : Nat) : Condition :=
  { slotRecord cycle kind urgent n tag detail with
    snapshot := some { dropped := r.tallies.dropped, late := r.tallies.late, reordered := r.tallies.reordered },
    leadIn := r.history }

/-- A state after a cycle event: the count advances by 1, and the three consumers have the event to take (R19). -/
def withCycleEvent (s : State) : State :=
  { s with
    monitor := { s.monitor with cycleCount := s.monitor.cycleCount + 1 },
    table := { s.table with
      silence := { s.table.silence with events := s.table.silence.events ++ [s.monitor.cycleCount + 1] } },
    rating := { s.rating with events := s.rating.events + 1 },
    lock := { s.lock with events := s.lock.events + 1 } }

/-- The Intake with the descriptor at the front gone: a fill that falls to 128 arms the high-mark report (R5, R6). -/
def withoutFront (i : Intake) (rest : List Descriptor) : Intake :=
  { i with queue := rest, highMark := if rest.length = 128 then .armed else i.highMark }

/-- The Classifier may take the frame at the front of the ingest queue: it has finished with the previous one, and no soft reset
holds the queue (R5, R170). -/
def FrameReady (s : State) (f : Frame) (rest : List Descriptor) : Prop :=
  Running s ∧ s.classifier = none ∧ s.intake.queue = .frame f :: rest
    ∧ ∀ p parts, s.softResets.get p = some parts → parts.intake = false

/-- The starter of the sweep in flight has had its answer STARTED, so slots may be visited (R92, R98). -/
def StartAnswered (s : State) (w : Sweep) : Prop := (s.ports.get w.starter).answer ≠ some (.bare .started)

/-- Every part of the first stage of a soft reset is done (R170). -/
def FirstStageDone (parts : SoftResetParts) : Prop :=
  parts.notices = true ∧ parts.lock = true ∧ parts.intake = true ∧ parts.sweep = true ∧ parts.rating = true ∧ parts.watch = true
    ∧ ∀ q, parts.ports.get q = true

/-- The tag map holds a tag against this slot alone (R32). -/
def MapsTo (s : State) (tag : Half) (n : Nat) : Prop :=
  n < 512 ∧ (slotAt s.table n).state ≠ .free ∧ (slotAt s.table n).tag = tag
    ∧ ∀ m, (slotAt s.table m).state ≠ .free → (slotAt s.table m).tag = tag → m = n

/-- The tag map does not hold a tag (R32). -/
def Unmapped (s : State) (tag : Half) : Prop := ∀ m, (slotAt s.table m).state ≠ .free → (slotAt s.table m).tag ≠ tag

/-! ### Slots and accesses -/

/-- The slot is DEFINED, TRACKING or STALE, and the parity of its storage is good (R34, R45). -/
def Readable (s : State) (n : Nat) : Prop :=
  stateLive (slotAt s.table n).state = true ∧ (slotAt s.table n).parityGood = true

/-- The slot is DEFINED, TRACKING or STALE, and its parity check at the start of an access fails (R45, R46). -/
def ParityFails (s : State) (n : Nat) (upset : Bool) : Prop :=
  stateLive (slotAt s.table n).state = true ∧ ((slotAt s.table n).parityGood && !upset) = false

/-- The state after a parity failure at the start of an access: the slot is FAULTED, and RECORD_FAULT with the access's code is
on its way to the log (R46). -/
def afterFault (s : State) (cycle : Word) (n code : Nat) : State :=
  { putSlot s n { slotAt s.table n with state := .faulted, parityGood := false } with
    appends := s.appends
      ++ [appendOf .streamTable (slotRecord cycle .recordFault true n (slotAt s.table n).tag code)] }

/-- A request for a command that reads or changes the record of the slot it names is in hand, with nothing wrong in its
arguments and, where the command needs it, the tally lock. -/
def NamesSlot (s : State) (p : Port) (n : Nat) (upset : Bool) (c : Instr) : Prop :=
  n ≤ 511 ∧
    ((c = .redefineStream p upset ∧ Holds s p
        ∧ ∃ args d named, InHand s p 0x11 args ∧ redefineArgs args = some (n, d, named))
      ∨ (c = .readDefinition p upset ∧ InHand s p 0x13 (leBytes 2 n))
      ∨ (c = .readWindow p upset ∧ InHand s p 0x17 (leBytes 2 n))
      ∨ (c = .readSheet p upset ∧ ∃ mode, mode ≤ 1 ∧ InHand s p 0x19 (leBytes 2 n ++ leBytes 1 mode))
      ∨ (c = .setGrading p upset ∧ Holds s p
          ∧ ∃ args named, InHand s p 0x20 args ∧ gradingArgs args = some (n, named))
      ∨ (c = .readGrades p upset ∧ InHand s p 0x22 (leBytes 2 n)))

/-- A device notice on its way (R180). -/
def sentNotice (sender : NoticeSource) (p : Port) (kind : NoticeKind) (word : Nat) : Posted :=
  { sender := sender, port := p, notice := { kind := kind, source := none, word := BitVec.ofNat 32 word } }

/-- A port's answer, formed without taking a request: the last visit of a MARK walk and the end of a soft reset (R86, R170). -/
def withAnswer (s : State) (p : Port) (ans : Answer) : State :=
  putPort s p { s.ports.get p with answer := some ans }

/-! ### Notices and attention -/

/-- Whether an enabled status source is set (R164, R165): NOTICE_PENDING while the queue holds a notice, and the four latches. -/
def enabledSource (a : Access) (queue : List Notice) : Bool :=
  (a.enables.getLsbD 0 && !queue.isEmpty) || (a.enables.getLsbD 1 && a.latches.noticeOverflow)
    || (a.enables.getLsbD 2 && a.latches.logOverrun) || (a.enables.getLsbD 3 && a.latches.captureDone)
    || (a.enables.getLsbD 4 && a.latches.deviceAlert)

/-- A port after an evaluation of ATTN (R165). -/
def attended (a : Access) (queue : List Notice) : Access := { a with attn := a.attn || enabledSource a queue }

/-- A notice joins the back of a port's queue; NOTICE_PENDING is newly set, and ATTN evaluated, when the queue was empty (R180). -/
def withNotice (s : State) (p : Port) (n : Notice) : State :=
  let queue := s.queues.get p ++ [n]
  { s with
    queues := s.queues.set p queue,
    ports := if s.queues.get p = [] then s.ports.set p (attended (s.ports.get p) queue) else s.ports }

/-- The latches with one of them set (R164). -/
def latched (l : Latches) : Latch → Latches
  | .noticeOverflow => { l with noticeOverflow := true }
  | .logOverrun => { l with logOverrun := true }
  | .captureDone => { l with captureDone := true }
  | .deviceAlert => { l with deviceAlert := true }

/-- A status source set event at a port: a latch that was clear is set, and ATTN evaluated (R164, R165). -/
def withLatch (s : State) (p : Port) (l : Latch) : State :=
  if latched (s.ports.get p).latches l = (s.ports.get p).latches then s
  else putPort s p (attended { s.ports.get p with latches := latched (s.ports.get p).latches l } (s.queues.get p))

/-! ### Watch units -/

/-- One unit for each number, from a function of the number. -/
def unitsBy (f : UnitId → WatchUnit) : PerUnit WatchUnit := { w0 := f .w0, w1 := f .w1, w2 := f .w2, w3 := f .w3 }

/-- The CAPTURE_DONE notice of a capture (R149). -/
def captureNotice (c : Capture) (early : Bool) : Posted :=
  sentNotice .captureBuffer c.owner .captureDone
    (c.entries.length + 256 * unitNumber c.source + if early then 1024 else 0)

/-- A FILLING capture of one of these units ends early: it is FULL, with CAPTURE_DONE to its owner and the owner's latch set
(R150). -/
def captureCutShort (s : State) (units : List UnitId) : State :=
  match s.watch.capture with
  | none => s
  | some c =>
    if c.full = false ∧ c.source ∈ units then
      { s with
        watch := { s.watch with capture := some { c with full := true } },
        posted := s.posted ++ [captureNotice c true],
        statusEvents := s.statusEvents ++ [{ port := c.owner, latch := .captureDone }] }
    else s

/-- A tag lies within a range with invert clear, or outside it with invert set (R142). -/
def TagFits (low high : Half) (invert : Bool) (tag : Half) : Prop :=
  (low.toNat ≤ tag.toNat ∧ tag.toNat ≤ high.toNat) ↔ invert = false

/-- A unit's range, invert flag and mask match a candidate hit (R142). -/
def UnitFits (w : WatchUnit) (tag : Half) (c : Tally) : Prop :=
  TagFits w.low w.high w.invert tag ∧ w.mask.getLsbD (tallyNumber c) = true

/-- Candidate hits of a category for a tag count against a unit: it is ARMED and matches, a PAIR-EVEN unit with its partner
matching too, a PAIR-ODD unit never (R142). -/
def UnitCounts (units : PerUnit WatchUnit) (u : UnitId) (tag : Half) (c : Tally) : Prop :=
  (units.get u).state = .armed ∧ UnitFits (units.get u) tag c
    ∧ ((units.get u).role = .single ∨ ((units.get u).role = .pairEven ∧ UnitFits (units.get (partnerOf u)) tag c))

/-- The seven bytes of a unit's range, invert flag and mask (R139). -/
def matchingArgBytes (m : Matching) : List Byte :=
  leBytes 2 m.low.toNat ++ leBytes 2 m.high.toNat ++ [if m.invert then 1 else 0] ++ leBytes 2 m.mask.toNat

/-- A range of valid tags, its low end at most its high end, and a mask that is not empty (R139). -/
def MatchingInRange (m : Matching) : Prop := 1 ≤ m.low.toNat ∧ m.low.toNat ≤ m.high.toNat ∧ m.high.toNat ≤ 65534 ∧ m.mask ≠ 0

/-- The argument bytes of ARM-WATCH (R139). -/
def armArgBytes (a : ArmArgs) : List Byte :=
  leBytes 1 (unitNumber a.unit) ++ matchingArgBytes a.own ++ leBytes 2 a.preset ++ leBytes 1 a.captureLength
    ++ match a.partner with
      | none => [0]
      | some m => [1] ++ matchingArgBytes m

/-- The arguments of ARM-WATCH lie in their ranges; only W0 and W2 take a partner (R139). -/
def ArmArgsInRange (a : ArmArgs) : Prop :=
  MatchingInRange a.own ∧ 1 ≤ a.preset ∧ a.preset ≤ 65535 ∧ a.captureLength ≤ 64
    ∧ ∀ m, a.partner = some m → MatchingInRange m ∧ unitIsOdd a.unit = false

/-! ### Descriptors byte by byte (R186) -/

/-- The byte at an offset. -/
def byteAt (bytes : List Byte) (k : Nat) : Nat := (bytes.getD k 0).toNat

/-- The two-byte field at an offset, low byte first. -/
def halfAt (bytes : List Byte) (k : Nat) : Nat := byteAt bytes k + 256 * byteAt bytes (k + 1)

/-- The four-byte field at an offset, low byte first. -/
def wordAt (bytes : List Byte) (k : Nat) : Nat := halfAt bytes k + 65536 * halfAt bytes (k + 2)

/-- Sixteen bytes that pass every test of R3 as a FRAME with these fields. -/
def CarriesFrame (bytes : List Byte) (f : Frame) : Prop :=
  bytes.length = 16 ∧ byteAt bytes 0 = 1 ∧ byteAt bytes 1 % 2 = 0 ∧ halfAt bytes 4 ≠ 0 ∧ halfAt bytes 4 ≠ 65535
    ∧ byteAt bytes 2 ≤ 31 ∧ halfAt bytes 12 ≠ 0
    ∧ f.ingress = byteAt bytes 2 ∧ f.tag.toNat = halfAt bytes 4 ∧ f.seq.toNat = halfAt bytes 6
    ∧ f.tick.toNat = wordAt bytes 8 ∧ f.length = halfAt bytes 12
    ∧ ((byteAt bytes 3 = 0 ∧ f.path = .a) ∨ (byteAt bytes 3 = 1 ∧ f.path = .b) ∨ (byteAt bytes 3 = 2 ∧ f.path = .none))

/-- Sixteen bytes that pass every test of R3 as a LINK with these fields. -/
def CarriesLink (bytes : List Byte) (port : RingPort) (up : Bool) : Prop :=
  bytes.length = 16 ∧ byteAt bytes 0 = 2
    ∧ ((byteAt bytes 1 = 1 ∧ port = .port1) ∨ (byteAt bytes 1 = 2 ∧ port = .port2))
    ∧ ((byteAt bytes 2 = 0 ∧ up = false) ∨ (byteAt bytes 2 = 1 ∧ up = true))

/-- Sixteen bytes that carry a good descriptor. -/
def Carries (bytes : List Byte) (d : Descriptor) : Prop :=
  match d with
  | .frame f => CarriesFrame bytes f
  | .link port up => CarriesLink bytes port up

/-! ### Argument bytes, as the command rules lay them out (R33, R35) -/

/-- The eleven bytes P, W, J, paths, h of a definition (R35, R185). -/
def definitionArgBytes (d : Definition) : List Byte :=
  leBytes 3 d.period ++ leBytes 3 d.lateWindow ++ leBytes 2 d.jump ++ [if d.dual then 1 else 0] ++ leBytes 2 d.silence

/-- The three bytes of one grade's settings, none for a grade not named (R33). -/
def settingArgBytes : Option GradeSetting → List Byte
  | none => []
  | some g => leBytes 1 g.threshold ++ leBytes 1 g.step ++ [if g.urgent then 1 else 0]

/-- The presence byte and the settings of the grades it names (R33). -/
def presenceArgBytes (named : PerGrade (Option GradeSetting)) : List Byte :=
  BitVec.ofNat 8 ((if named.loss.isSome then 1 else 0) + (if named.timing.isSome then 2 else 0)
      + (if named.order.isSome then 4 else 0) + (if named.path.isSome then 8 else 0))
    :: (settingArgBytes named.loss ++ settingArgBytes named.timing ++ settingArgBytes named.order
        ++ settingArgBytes named.path)

/-- Every field of a definition lies in its range, and J × P is below 2,147,483,648 (R33). -/
def DefinitionInRange (d : Definition) : Prop :=
  16 ≤ d.period ∧ d.period ≤ 16777215 ∧ d.lateWindow ≤ 1048575 ∧ 32 ≤ d.jump ∧ d.jump ≤ 4096 ∧ 1 ≤ d.silence
    ∧ d.silence ≤ 4095 ∧ d.jump * d.period < 2147483648

/-- A grade's settings lie in their ranges (R33). -/
def SettingInRange (g : GradeSetting) : Prop := (g.threshold ≤ 200 ∨ g.threshold = 255) ∧ g.step ≤ 199

/-- The settings of every grade named lie in their ranges (R33). -/
def NamedInRange (named : PerGrade (Option GradeSetting)) : Prop :=
  ∀ g c, named.get g = some c → SettingInRange c

/-! ### Formats, as 11_formats.md lays them out -/

/-- A set of tally categories as two bytes' nine bits: bit 0 ACCEPTED, bit 1 DROPPED, bit 2 LATE, bit 3 REORDERED, bit 4
RESCUED, bit 5 DUPLICATE, bit 6 STRAGGLER, bit 7 MISSED_A, bit 8 MISSED_B (R184). -/
def categoryBits (f : Tally → Bool) : BitVec 9 :=
  BitVec.ofNat 9 ((if f .accepted then 1 else 0) + (if f .dropped then 2 else 0) + (if f .late then 4 else 0)
    + (if f .reordered then 8 else 0) + (if f .rescued then 16 else 0) + (if f .duplicate then 32 else 0)
    + (if f .straggler then 64 else 0) + (if f .missedA then 128 else 0) + (if f .missedB then 256 else 0))

/-- The classification set of a frame: the tallies whose increment is above 0 (R57). -/
def categoriesOf (incs : Nine Nat) : BitVec 9 := categoryBits (fun c => decide (0 < incs.get c))

/-- The path code: 0 A, 1 B, 2 NONE (R184). -/
def pathByte : PathCode → Byte
  | .a => 0
  | .b => 1
  | .none => 2

/-- A history entry, nine bytes: sequence, path code, arrival tick, classification set (R188). -/
def historyLayout (e : HistoryEntry) : List Byte :=
  leBytes 2 e.seq.toNat ++ [pathByte e.path] ++ leBytes 4 e.tick.toNat ++ leBytes 2 e.cats.toNat

/-- A condition record: serial, cycle count, kind code, class code, flags (bit 0 urgency, bit 1 slot and tag present, bit 2
snapshot present), lead-in count, slot, tag, detail word, snapshot, and the lead-in, an absent field as 0 (R188). -/
def recordLayout (r : LogRecord) : List Byte :=
  let c := r.condition
  leBytes 4 r.serial ++ leBytes 4 c.cycle.toNat ++ leBytes 1 (kindCode c.kind) ++ leBytes 1 (kindClass c.kind)
    ++ leBytes 1 ((if c.urgent then 1 else 0) + (if c.subject = none then 0 else 2) + (if c.snapshot = none then 0 else 4))
    ++ leBytes 1 c.leadIn.length
    ++ (match c.subject with
        | some x => leBytes 2 x.slot ++ leBytes 2 x.tag.toNat
        | none => [0, 0, 0, 0])
    ++ leBytes 4 c.detail.toNat
    ++ (match c.snapshot with
        | some x => leBytes 4 x.dropped ++ leBytes 4 x.late ++ leBytes 4 x.reordered
        | none => List.replicate 12 0)
    ++ c.leadIn.flatMap historyLayout

/-- A capture entry, thirteen bytes: slot, tag, sequence, path code, arrival tick, classification set (R189). -/
def captureLayout (e : CaptureEntry) : List Byte :=
  leBytes 2 e.slot ++ leBytes 2 e.tag.toNat ++ leBytes 2 e.seq.toNat ++ [pathByte e.path] ++ leBytes 4 e.tick.toNat
    ++ leBytes 2 e.cats.toNat

/-! ### The laws of the state -/

/-- While no intake counter has saturated, every run counted in RECEIVED is counted in exactly one of ADMITTED, LOST, BAD_FRAMES
and MALFORMED at arrival (R13). -/
def CountersLaw (s : State) : Prop :=
  s.intake.counters.received < 4294967295 →
    s.intake.counters.received = s.intake.counters.admitted + s.intake.counters.lost + s.intake.counters.badFrames
      + s.intake.counters.malformedArrival

/-- The ingest queue holds at most 256 descriptors (R4). -/
def IngestLaw (s : State) : Prop := s.intake.queue.length ≤ 256

/-- A timer counts toward a deadline formed from the parameters in force, and has not passed it (R18). -/
def TimerWithin (t : Timer) (deadline : Nat) : Prop := t.deadline = deadline ∧ t.elapsed ≤ deadline

/-- The parameters lie in their ranges (02, state table; R28), a running timer counts toward the deadline of its state, and the
synthesized run is 0 outside HOLDOVER and below the limit within it (R18, R21, R25). -/
def TimebaseLaw (s : State) : Prop :=
  50 ≤ s.monitor.cycleLength ∧ s.monitor.cycleLength ≤ 65535 ∧ 1 ≤ s.monitor.tolerance
    ∧ s.monitor.tolerance ≤ s.monitor.cycleLength / 4 ∧ 1 ≤ s.monitor.holdoverLimit ∧ s.monitor.holdoverLimit ≤ 255
    ∧ match s.monitor.state with
      | .unlocked => s.monitor.run = 0
      | .acquiring t => s.monitor.run = 0 ∧ TimerWithin t (s.monitor.cycleLength + s.monitor.tolerance)
      | .locked t => s.monitor.run = 0 ∧ TimerWithin t (s.monitor.cycleLength + s.monitor.tolerance)
      | .holdover t => 1 ≤ s.monitor.run ∧ s.monitor.run < s.monitor.holdoverLimit ∧ TimerWithin t s.monitor.cycleLength

/-- A valid tag, 1..65534 (R2, R32). -/
def ValidTag (tag : Half) : Prop := 1 ≤ tag.toNat ∧ tag.toNat ≤ 65534

/-- No two slots outside FREE hold the same tag, and every such tag is valid (R32). -/
def TagMapLaw (s : State) : Prop :=
  (∀ n, (slotAt s.table n).state ≠ .free → ValidTag (slotAt s.table n).tag)
    ∧ ∀ m n, (slotAt s.table m).state ≠ .free → (slotAt s.table n).state ≠ .free →
        (slotAt s.table m).tag = (slotAt s.table n).tag → m = n

/-- The stray list has at most 16 entries, no two for the same tag, none for a tag that a slot outside FREE holds (R32, R49). -/
def StrayLaw (s : State) : Prop :=
  s.table.strays.length ≤ 16 ∧ (s.table.strays.map (·.tag)).Nodup
    ∧ ∀ e ∈ s.table.strays, ∀ n, (slotAt s.table n).state ≠ .free → (slotAt s.table n).tag ≠ e.tag

/-- B ≤ H ≤ B+31, H is in the accepted set, and no sequence above H is (R65). -/
def WindowOk (r : Record) : Prop :=
  (r.high - r.base).toNat < 32 ∧ r.acceptedSet.getLsbD (r.high - r.base).toNat = true
    ∧ ∀ i, (r.high - r.base).toNat < i → r.acceptedSet.getLsbD i = false

/-- The window law of every TRACKING or STALE stream (R65). -/
def WindowLaw (s : State) : Prop :=
  ∀ n, (slotAt s.table n).state = .tracking ∨ (slotAt s.table n).state = .stale → WindowOk (slotAt s.table n).record

/-- A record's accounts: no tally above 4,294,967,295, no mark above its tally, 1 ≤ worst ≤ current ≤ 200, interval counts and
intervals rated at most 65,535, at most four history entries (R76, R82, R84, R104, R107). -/
def AccountsOk (r : Record) : Prop :=
  (∀ c, r.tallies.get c ≤ 4294967295) ∧ (∀ p c, (r.marks.get p).get c ≤ r.tallies.get c)
    ∧ (∀ g, 1 ≤ (r.grades.get g).worst ∧ (r.grades.get g).worst ≤ (r.grades.get g).current ∧ (r.grades.get g).current ≤ 200)
    ∧ (∀ g, r.intervals.get g ≤ 65535) ∧ r.intervalsRated ≤ 65535 ∧ r.history.length ≤ 4

/-- The accounts law of every slot outside FREE. -/
def AccountsLaw (s : State) : Prop := ∀ n, (slotAt s.table n).state ≠ .free → AccountsOk (slotAt s.table n).record

/-- GAP_COUNT has not passed its limit; outside a soft reset, the gap stamp of a DEFINED, TRACKING or STALE slot does not exceed
it (R7, R90). -/
def GapLaw (s : State) : Prop :=
  s.intake.counters.gapCount ≤ 4294967295 ∧ ((∀ p, s.softResets.get p = none) →
    ∀ n, stateLive (slotAt s.table n).state = true → (slotAt s.table n).record.gapStamp ≤ s.intake.counters.gapCount)

/-- The log holds at most 128 records, their serials are consecutive up to the next serial, no serial is 0, and every cursor
lies from the oldest serial held to the next serial (R124, R125, R128). -/
def LogLaw (s : State) : Prop :=
  s.log.records.length ≤ 128 ∧ (1 ≤ s.log.nextSerial ∧ s.log.nextSerial ≤ 4294967295)
    ∧ (∀ r ∈ s.log.records, 1 ≤ r.serial ∧ r.serial ≤ 4294967295)
    ∧ (∀ i r, s.log.records[i]? = some r →
        serialSucc r.serial = ((s.log.records[i + 1]?).map (·.serial)).getD s.log.nextSerial)
    ∧ ∀ p, s.log.cursors.get p = s.log.nextSerial ∨ ∃ r ∈ s.log.records, r.serial = s.log.cursors.get p

/-- What R138, R143 and R144 say of one watch unit and its partner. -/
def UnitOk (units : PerUnit WatchUnit) (u : UnitId) : Prop :=
  ((units.get u).state = .free → units.get u = WatchUnit.free)
    ∧ ((units.get u).state ≠ .free → (units.get u).owner.isSome = true)
    ∧ ((units.get u).state = .armed → (units.get u).role ≠ .pairOdd →
        1 ≤ (units.get u).remaining ∧ (units.get u).remaining ≤ (units.get u).preset ∧ (units.get u).firing = none)
    ∧ ((units.get u).state = .fired → (units.get u).role ≠ .pairOdd →
        (units.get u).remaining = 0 ∧ (units.get u).firing.isSome = true)
    ∧ ((units.get u).role = .pairEven → unitIsOdd u = false ∧ (units.get (partnerOf u)).role = .pairOdd
        ∧ (units.get (partnerOf u)).owner = (units.get u).owner ∧ (units.get (partnerOf u)).state = (units.get u).state)
    ∧ ((units.get u).role = .pairOdd → unitIsOdd u = true ∧ (units.get (partnerOf u)).role = .pairEven)
    ∧ (units.get u).captureLength ≤ 64

/-- What R148, R149 and R150 say of a capture: between one and n entries, n at most 64; while FILLING, fewer than n, and a
source unit that is FIRED and the owner's. -/
def CaptureOk (units : PerUnit WatchUnit) (c : Capture) : Prop :=
  1 ≤ c.entries.length ∧ c.entries.length ≤ c.length ∧ c.length ≤ 64
    ∧ (c.full = false → c.entries.length < c.length ∧ (units.get c.source).state = .fired
        ∧ (units.get c.source).role ≠ .pairOdd ∧ (units.get c.source).owner = some c.owner)

/-- The law of the watch units and the Capture Buffer (R138, R143, R144, R148 to R150). -/
def WatchLaw (s : State) : Prop :=
  (∀ u, UnitOk s.watch.units u) ∧ ∀ c, s.watch.capture = some c → CaptureOk s.watch.units c

/-- A FREE lock has no waiter; a HELD lock has a lease of 1..65535 or NONE and at most two waiters, no port twice and not the
holder; the lease setting is at most 65535 (R172). -/
def LockLaw (s : State) : Prop :=
  s.lock.setting ≤ 65535
    ∧ match s.lock.holding with
      | none => s.lock.waiters = []
      | some h => s.lock.waiters.Nodup ∧ h.port ∉ s.lock.waiters ∧ s.lock.waiters.length ≤ 2
          ∧ ∀ n, h.lease = some n → 1 ≤ n ∧ n ≤ 65535

/-- No notice queue holds more than 15 notices (R180). -/
def NoticeLaw (s : State) : Prop := ∀ p, (s.queues.get p).length ≤ 15

/-- A port whose ATTN is QUIET has no enabled status source set (R165). -/
def AttentionLaw (s : State) : Prop :=
  ∀ p, (s.ports.get p).attn = false → statusBits (s.ports.get p).latches (s.queues.get p) &&& (s.ports.get p).enables = 0

/-- All the laws together: what every state of a safe run obeys. -/
def Lawful (s : State) : Prop :=
  CountersLaw s ∧ IngestLaw s ∧ TimebaseLaw s ∧ TagMapLaw s ∧ StrayLaw s ∧ WindowLaw s ∧ AccountsLaw s ∧ GapLaw s ∧ LogLaw s
    ∧ WatchLaw s ∧ LockLaw s ∧ NoticeLaw s ∧ AttentionLaw s

/-- A law that every step keeps. -/
def KeptByEveryStep (law : State → Prop) : Prop := ∀ s t, law s → step s = .next t → law t

end Sys2Proof.Safety
end

