-- ==== Sys2Proof/Certificates/Slice0/Obligations.lean ====
section
/-! DEFINITION. The statements for the provers, chapter by chapter. "log n" names notes/assumptions/n.md. -/

open Sys2Proof Sys2Proof.Machine Sys2Proof.Safety

/-! ### The block as a machine -/

/-- A step of a state with a command at the front of its queue is the command's effect on the state with the queue's rest. -/
def Obligations.StepTakesTheFrontCommand : Prop :=
  ∀ (c : Instr) (rest : List Instr) (s : State),
    step { s with pending := c :: rest } = exec c { s with pending := rest }

/-- With no command waiting, a step is one microsecond of a running local cycle timer, as far as its deadline, and changes
nothing else. The model's choice (log 3). -/
def Obligations.EmptyQueueCountsOneMicrosecond : Prop :=
  ∀ s : State, s.pending = [] →
    step s = .next { s with monitor := { s.monitor with state :=
      match s.monitor.state with
      | .unlocked => .unlocked
      | .acquiring t => .acquiring { t with elapsed := min t.deadline (t.elapsed + 1) }
      | .locked t => .locked { t with elapsed := min t.deadline (t.elapsed + 1) }
      | .holdover t => .holdover { t with elapsed := min t.deadline (t.elapsed + 1) } } }

/-- Every command answers a next state in every state, and leaves the queue of commands as it is. (That a row without its cause
leaves the state as it is, so that every row answers everywhere, is the model's choice: log 2.) -/
def Obligations.EveryCommandAnswersNextAndKeepsTheQueue : Prop :=
  ∀ (c : Instr) (s : State), ∃ t, exec c s = .next t ∧ t.pending = s.pending

/-! ### RESET and start-up -/

/-- RESET_ASSERT puts every block at its device-reset values and every port in INIT, and abandons all work, the partial request
of a port among it. (The released select lines are the model's choice: log 9; the bits that State keeps of a run begun in INIT,
of the Classifier's last count and of an access whose records are being stored: logs 8, 19, 10.) -/
def Obligations.ResetAssertRestoresDeviceResetValues : Prop :=
  ∀ s : State, ∃ t, exec .resetAssert s = .next t ∧ t.pending = s.pending ∧ t.startup = .resetAsserted
    ∧ (∀ n, (slotAt t.table n).state = .free ∧ (slotAt t.table n).parityGood = true)
    ∧ t.table.strays = [] ∧ t.table.silence = { events := [], position := 0 } ∧ (∀ p, t.table.markWalks.get p = none)
    ∧ t.intake.staleRun = false ∧ t.intake.frameCount = none
    ∧ t.intake.queue = [] ∧ t.intake.highMark = .armed ∧ t.intake.episode = none
    ∧ t.intake.pathA = { up := true, epoch := 0 } ∧ t.intake.pathB = { up := true, epoch := 0 }
    ∧ t.intake.counters =
        { received := 0, admitted := 0, lost := 0, badFrames := 0, malformedArrival := 0, malformedClass := 0,
          faultedDiscards := 0, strayEvictions := 0, gapCount := 0 }
    ∧ t.monitor =
        { state := .unlocked, cycleCount := 0, run := 0, earlyMarks := 0, cycleLength := 1000, tolerance := 20,
          holdoverLimit := 64 }
    ∧ t.rating = { interval := 2000, since := 0, sweep := none, skips := 0, events := 0 } ∧ t.sweep = none
    ∧ t.log.records = [] ∧ t.log.nextSerial = 1 ∧ t.log.midAccess = none
    ∧ (∀ p, t.log.cursors.get p = 1 ∧ t.log.overruns.get p = 0 ∧ t.log.subscriptions.get p = 0)
    ∧ (∀ u, t.watch.units.get u =
        { state := .free, owner := none, role := .single, low := 0, high := 0, invert := false, mask := 0, preset := 0,
          remaining := 0, captureLength := 0, firing := none })
    ∧ t.watch.capture = none ∧ t.watch.handoffs = [] ∧ t.classifier = none
    ∧ t.lock = { holding := none, waiters := [], setting := 20000, events := 0 }
    ∧ t.appends = [] ∧ t.posted = [] ∧ t.statusEvents = []
    ∧ ∀ p, t.queues.get p = [] ∧ (t.ports.get p).state = .init ∧ (t.ports.get p).select = .released
        ∧ (t.ports.get p).received = [] ∧ (t.ports.get p).request = none ∧ (t.ports.get p).answer = none
        ∧ (t.ports.get p).response = [] ∧ (t.ports.get p).exchange = none
        ∧ (t.ports.get p).latches =
            { noticeOverflow := false, logOverrun := false, captureDone := false, deviceAlert := false }
        ∧ (t.ports.get p).enables = 0 ∧ (t.ports.get p).attn = false ∧ t.portResets.get p = none
        ∧ t.softResets.get p = none

/-- RESET_RELEASE begins INIT with everything at its device-reset values; INIT_END ends it for the Intake, the Cycle Monitor and
the ports at once: a port with no period open becomes IDLE, one with a period open stays as it is until its release. Until INIT
has ended no descriptor, pulse, expiry, walk, step, append, notice or status event is taken. (That the strobe's level is an
operand of INIT_END: log 8. That the rows of appends, notices, status events, mark visits, sweep steps and rating steps leave
the state as it is until then, of which the rules of start-up do not speak, is the model's choice: log 2.) -/
def Obligations.StartUpRunsFromReleaseToInitEnd : Prop :=
  (∀ s : State, s.startup = .resetAsserted →
    exec .resetRelease s = .next { State.reset with pending := s.pending, startup := .initializing })
  ∧ (∀ (strobe : Bool) (s : State), s.startup = .initializing → ∃ t, exec (.initEnd strobe) s = .next t
      ∧ t = { s with startup := .running, intake := { s.intake with staleRun := strobe }, ports := t.ports }
      ∧ ∀ p, t.ports.get p =
          if (s.ports.get p).select = .released then { s.ports.get p with state := .idle } else s.ports.get p)
  ∧ ∀ s : State, s.startup ≠ .running →
    (∀ bytes, exec (.descriptorRun bytes) s = .next s) ∧ exec .linkApply s = .next s
    ∧ (∀ dt, exec (.lineCyclePulse dt) s = .next s) ∧ exec .timerExpiry s = .next s
    ∧ (∀ u, exec (.silenceCheck u) s = .next s) ∧ exec .ratingCycleEvent s = .next s ∧ exec .ratingDue s = .next s
    ∧ (∀ u, exec (.ratingStep u) s = .next s) ∧ exec .lockCycleEvent s = .next s ∧ exec .leaseExpiry s = .next s
    ∧ (∀ u, exec (.frameTake u) s = .next s) ∧ exec .watchHandoff s = .next s
    ∧ (∀ b, exec (.clearStep b) s = .next s) ∧ (∀ b, exec (.scrubStep b) s = .next s)
    ∧ (∀ p b, exec (.markVisit p b) s = .next s) ∧ (∀ src, exec (.logAppend src) s = .next s)
    ∧ (∀ src, exec (.noticePlace src) s = .next s) ∧ ∀ p l, exec (.statusSourceSet p l) s = .next s

/-! ### The Observation Link and the Intake (01) -/

/-- A run that fails a test of R1 or R3 adds 1 to RECEIVED and to MALFORMED at arrival or BAD_FRAMES, by the first test that
fails, and changes nothing else, whatever the fill of the queue; a run begun before the end of INIT is not counted. -/
def Obligations.RejectedRunIsOnlyCounted : Prop :=
  ∀ (s : State) (bytes : List Byte), Running s → s.intake.staleRun = false →
    let malformed : State := { s with intake := { s.intake with counters := { s.intake.counters with
      received := up1 s.intake.counters.received, malformedArrival := up1 s.intake.counters.malformedArrival } } }
    let bad : State := { s with intake := { s.intake with counters := { s.intake.counters with
      received := up1 s.intake.counters.received, badFrames := up1 s.intake.counters.badFrames } } }
    (bytes.length ≠ 16 → exec (.descriptorRun bytes) s = .next malformed)
    ∧ (bytes.length = 16 → byteAt bytes 0 ≠ 1 → byteAt bytes 0 ≠ 2 → exec (.descriptorRun bytes) s = .next malformed)
    ∧ (bytes.length = 16 → byteAt bytes 0 = 1 → byteAt bytes 1 % 2 = 1 → exec (.descriptorRun bytes) s = .next bad)
    ∧ (bytes.length = 16 → byteAt bytes 0 = 1 → byteAt bytes 1 % 2 = 0 →
        (halfAt bytes 4 = 0 ∨ halfAt bytes 4 = 65535 ∨ 2 < byteAt bytes 3 ∨ 31 < byteAt bytes 2 ∨ halfAt bytes 12 = 0) →
        exec (.descriptorRun bytes) s = .next malformed)
    ∧ (bytes.length = 16 → byteAt bytes 0 = 2 →
        (byteAt bytes 1 = 0 ∨ 2 < byteAt bytes 1 ∨ 1 < byteAt bytes 2) →
        exec (.descriptorRun bytes) s = .next malformed)
    ∧ exec (.descriptorRun bytes) { s with intake := { s.intake with staleRun := true } } = .next s

/-- A good descriptor joins the back of a queue of fewer than 256, closing an open loss episode with INGEST_LOST and reporting a
fill of 224 once with INGEST_HIGH; at a queue of 256 it is lost, and opens or extends the episode. (Which record comes first
when one admission makes both, which no run reaches, is the model's choice, log 22.) -/
def Obligations.GoodRunIsAdmittedOrLost : Prop :=
  ∀ (s : State) (bytes : List Byte) (d : Descriptor), Running s → s.intake.staleRun = false → Carries bytes d →
    (s.intake.queue.length < 256 →
      exec (.descriptorRun bytes) s = .next { s with
        intake := { s.intake with
          queue := s.intake.queue ++ [d], episode := none,
          highMark := if s.intake.queue.length + 1 = 224 then .spent else s.intake.highMark,
          counters := { s.intake.counters with
            received := up1 s.intake.counters.received, admitted := up1 s.intake.counters.admitted } },
        appends := s.appends ++ accessAppends .intake none
          ((match s.intake.episode with
            | some k => [bareRecord s.monitor.cycleCount .ingestLost true k]
            | none => [])
           ++ if s.intake.queue.length + 1 = 224 ∧ s.intake.highMark = .armed then
                [bareRecord s.monitor.cycleCount .ingestHigh false 224] else []) })
    ∧ (256 ≤ s.intake.queue.length →
      exec (.descriptorRun bytes) s = .next { s with
        intake := { s.intake with
          episode := some (match s.intake.episode with
            | some k => up1 k
            | none => 1),
          counters := { s.intake.counters with
            received := up1 s.intake.counters.received, lost := up1 s.intake.counters.lost,
            gapCount := match s.intake.episode with
              | some _ => s.intake.counters.gapCount
              | none => up1 s.intake.counters.gapCount } } })

/-- A LINK descriptor at the front is applied to the path of its ring port and leaves the queue: DOWN takes an UP path DOWN,
advances its epoch and appends PATH_DOWN; UP brings a DOWN path UP with its epoch and appends PATH_UP; a report of the state the
path already has changes nothing. Both kinds have class PATH. While the Classifier holds a frame, neither LINK_APPLY nor
FRAME_TAKE takes anything from the queue. -/
def Obligations.LinkChangeIsAppliedToItsPath : Prop :=
  (∀ (s : State) (port : RingPort) (up : Bool) (rest : List Descriptor),
    Running s → s.classifier = none → s.intake.queue = .link port up :: rest →
    let path := pathOfPort s.intake port
    let left := withoutFront s.intake rest
    (up = false → path.up = true →
      exec .linkApply s = .next { s with
        intake := setPathOfPort left port { up := false, epoch := path.epoch + 1 },
        appends := s.appends ++ [appendOf .intake (bareRecord s.monitor.cycleCount .pathDown true
          (ringPortNumber port + 256 * (path.epoch + 1).toNat))] })
    ∧ (up = false → path.up = false → exec .linkApply s = .next { s with intake := left })
    ∧ (up = true → path.up = false →
      exec .linkApply s = .next { s with
        intake := setPathOfPort left port { up := true, epoch := path.epoch },
        appends := s.appends ++ [appendOf .intake (bareRecord s.monitor.cycleCount .pathUp false
          (ringPortNumber port + 256 * path.epoch.toNat))] })
    ∧ (up = true → path.up = true → exec .linkApply s = .next { s with intake := left }))
  ∧ (∀ (s : State), s.classifier ≠ none →
    exec .linkApply s = .next s ∧ ∀ u, exec (.frameTake u) s = .next s)
  ∧ kindClass .pathDown = 1 ∧ kindClass .pathUp = 1

/-- READ-INTAKE answers 48 bytes: the nine counters, the fill, the report, the episode and its count, and the two paths. The
bytes that code the report, the episode and the path states are free values of Config, since no rule gives their codes (log 24).
The model's own note of the Classifier's last count is dropped with the reading (log 19). -/
def Obligations.ReadIntakeReturnsItsAccount : Prop :=
  ∀ (s : State) (p : Port), InHand s p 0x0a [] →
    let c := s.intake.counters
    let data := leBytes 4 c.received ++ leBytes 4 c.admitted ++ leBytes 4 c.lost ++ leBytes 4 c.badFrames
      ++ leBytes 4 c.malformedArrival ++ leBytes 4 c.malformedClass ++ leBytes 4 c.faultedDiscards
      ++ leBytes 4 c.strayEvictions ++ leBytes 4 c.gapCount ++ leBytes 2 s.intake.queue.length
      ++ [Config.highMarkByte (decide (s.intake.highMark = .spent)), Config.episodeByte s.intake.episode.isSome]
      ++ leBytes 4 (s.intake.episode.getD 0)
      ++ [Config.pathStateByte s.intake.pathA.up, s.intake.pathA.epoch,
          Config.pathStateByte s.intake.pathB.up, s.intake.pathB.epoch]
    exec (.readIntake p) s
        = .next (answered { s with intake := { s.intake with frameCount := none } } p (.okData data))
      ∧ data.length = 48

/-- Every step keeps the account of the intake counters and the bound of the ingest queue. -/
def Obligations.EveryStepKeepsTheIntakeLaws : Prop := KeptByEveryStep CountersLaw ∧ KeptByEveryStep IngestLaw

/-! ### The line timebase (02) -/

/-- A pulse in UNLOCKED starts acquisition. In ACQUIRING, a pulse nearer than L−T to the one before starts it again, and one at
L−T or later, before the timer expires, confirms the train: LOCKED, a cycle event, TIMEBASE_LOCKED with detail 0. -/
def Obligations.PulsesAcquireTheTimebase : Prop :=
  ∀ (s : State) (dt : Nat), Running s →
    let start : Timer := { elapsed := 0, deadline := s.monitor.cycleLength + s.monitor.tolerance }
    (s.monitor.state = .unlocked →
      exec (.lineCyclePulse dt) s = .next { s with monitor := { s.monitor with state := .acquiring start } })
    ∧ ∀ t, s.monitor.state = .acquiring t → t.elapsed + dt ≤ t.deadline →
      (t.elapsed + dt < s.monitor.cycleLength - s.monitor.tolerance →
        exec (.lineCyclePulse dt) s = .next { s with monitor := { s.monitor with state := .acquiring start } })
      ∧ (s.monitor.cycleLength - s.monitor.tolerance ≤ t.elapsed + dt →
        exec (.lineCyclePulse dt) s = .next
          { withCycleEvent { s with monitor := { s.monitor with state := .locked start } } with
            appends := s.appends
              ++ [appendOf .cycleMonitor (bareRecord (s.monitor.cycleCount + 1) .timebaseLocked false 0)] })

/-- In LOCKED a pulse at L−T..L+T is an ordinary line cycle: a cycle event, the timer restarted from the pulse with deadline L +
T, and no record. -/
def Obligations.PulseOnTimeInLockedIsALineCycle : Prop :=
  ∀ (s : State) (dt : Nat) (t : Timer), Running s → s.monitor.state = .locked t →
    t.deadline = s.monitor.cycleLength + s.monitor.tolerance →
    s.monitor.cycleLength - s.monitor.tolerance ≤ t.elapsed + dt →
    t.elapsed + dt ≤ s.monitor.cycleLength + s.monitor.tolerance →
    exec (.lineCyclePulse dt) s = .next (withCycleEvent { s with monitor := { s.monitor with
      state := .locked { elapsed := 0, deadline := s.monitor.cycleLength + s.monitor.tolerance } } })

/-- In LOCKED a pulse below L−T is an early mark: a cycle event and MARK_EARLY with the elapsed time. In HOLDOVER a pulse
returns the monitor to LOCKED: at most T after the last synthesized event it replaces that event, later it makes one of its own;
TIMEBASE_LOCKED carries the run, plus 256 for a replacement. -/
def Obligations.PulsesThatAreEarlyOrEndHoldover : Prop :=
  ∀ (s : State) (dt : Nat) (t : Timer), Running s → t.elapsed + dt ≤ t.deadline →
    let start : Timer := { elapsed := 0, deadline := s.monitor.cycleLength + s.monitor.tolerance }
    let e := t.elapsed + dt
    (s.monitor.state = .locked t → e < s.monitor.cycleLength - s.monitor.tolerance →
      exec (.lineCyclePulse dt) s = .next
        { withCycleEvent { s with monitor := { s.monitor with
            state := .locked start, earlyMarks := up1 s.monitor.earlyMarks } } with
          appends := s.appends
            ++ [appendOf .cycleMonitor (bareRecord (s.monitor.cycleCount + 1) .markEarly false e)] })
    ∧ (s.monitor.state = .holdover t → e ≤ s.monitor.tolerance →
      exec (.lineCyclePulse dt) s = .next { s with
        monitor := { s.monitor with state := .locked start, run := 0 },
        appends := s.appends
          ++ [appendOf .cycleMonitor (bareRecord s.monitor.cycleCount .timebaseLocked false (s.monitor.run + 256))] })
    ∧ (s.monitor.state = .holdover t → s.monitor.tolerance < e →
      exec (.lineCyclePulse dt) s = .next
        { withCycleEvent { s with monitor := { s.monitor with state := .locked start, run := 0 } } with
          appends := s.appends
            ++ [appendOf .cycleMonitor (bareRecord (s.monitor.cycleCount + 1) .timebaseLocked false s.monitor.run)] })

/-- An expiry: ACQUIRING returns to UNLOCKED without a record; LOCKED enters HOLDOVER, and HOLDOVER stays, each with a
synthesized cycle event; the event that brings the run to the holdover limit ends in UNLOCKED with TIMEBASE_LOST. (That with a
limit of 1 the two records of one expiry are handed over as two accesses, between which another block's record may fall, is the
model's choice: log 26.) -/
def Obligations.ExpiriesSynthesizeCycleEventsUpToTheLimit : Prop :=
  ∀ (s : State) (t : Timer), Running s →
    let again : Timer := { elapsed := 0, deadline := s.monitor.cycleLength }
    let count := s.monitor.cycleCount + 1
    let entered := appendOf .cycleMonitor (bareRecord count .timebaseHoldover true s.monitor.holdoverLimit)
    let lost := appendOf .cycleMonitor (bareRecord count .timebaseLost true 1)
    (s.monitor.state = .acquiring t →
      exec .timerExpiry s = .next { s with monitor := { s.monitor with state := .unlocked, run := 0 } })
    ∧ (s.monitor.state = .locked t → 1 < s.monitor.holdoverLimit →
      exec .timerExpiry s = .next
        { withCycleEvent { s with monitor := { s.monitor with state := .holdover again, run := 1 } } with
          appends := s.appends ++ [entered] })
    ∧ (s.monitor.state = .locked t → s.monitor.holdoverLimit = 1 →
      exec .timerExpiry s = .next
        { withCycleEvent { s with monitor := { s.monitor with state := .unlocked, run := 0 } } with
          appends := s.appends ++ [entered, lost] })
    ∧ (s.monitor.state = .holdover t → s.monitor.run + 1 < s.monitor.holdoverLimit →
      exec .timerExpiry s = .next
        (withCycleEvent { s with monitor := { s.monitor with state := .holdover again, run := s.monitor.run + 1 } }))
    ∧ (s.monitor.state = .holdover t → s.monitor.run + 1 = s.monitor.holdoverLimit →
      exec .timerExpiry s = .next
        { withCycleEvent { s with monitor := { s.monitor with state := .unlocked, run := 0 } } with
          appends := s.appends ++ [lost] })

/-- SET-TIMEBASE from the holder installs L, T and the limit, stops the timer and goes to UNLOCKED, with TIMEBASE_LOST, detail
2, from LOCKED or HOLDOVER; arguments out of range are answered BAD_VALUE. READ-TIMEBASE answers 19 bytes, and changes nothing
but the time that has passed when it is taken (log 4). (SET-TIMEBASE's answer waits until the record is stored: log 11.) -/
def Obligations.TimebaseIsSetAndRead : Prop :=
  (∀ (s : State) (p : Port) (l t limit : Nat), Holds s p → l ≤ 65535 → t ≤ 65535 → limit ≤ 255 →
    InHand s p 0x0c (leBytes 2 l ++ leBytes 2 t ++ leBytes 1 limit) →
    let set : State := { s with monitor := { s.monitor with
      state := .unlocked, run := 0, cycleLength := l, tolerance := t, holdoverLimit := limit } }
    let lost := commandAppend .cycleMonitor p (bareRecord s.monitor.cycleCount .timebaseLost true 2)
    (50 ≤ l ∧ 1 ≤ t ∧ t ≤ l / 4 ∧ 1 ≤ limit →
      exec (.setTimebase p) s = .next (answered
        (match s.monitor.state with
          | .unlocked => set
          | .acquiring _ => set
          | .locked _ => { set with appends := s.appends ++ [lost] }
          | .holdover _ => { set with appends := s.appends ++ [lost] }) p (.bare .ok)))
    ∧ (¬(50 ≤ l ∧ 1 ≤ t ∧ t ≤ l / 4 ∧ 1 ≤ limit) →
      exec (.setTimebase p) s = .next (answered s p (.bare .badValue))))
  ∧ (∀ (s : State) (p : Port) (args : List Byte), Holds s p → InHand s p 0x0c args → args.length ≠ 5 →
    exec (.setTimebase p) s = .next (answered s p (.bare .badValue)))
  ∧ ∀ (s : State) (p : Port) (dt : Nat), InHand s p 0x0b [] →
    let reading : Timebase := match s.monitor.state with
      | .unlocked => .unlocked
      | .acquiring t => .acquiring { t with elapsed := min t.deadline (t.elapsed + dt) }
      | .locked t => .locked { t with elapsed := min t.deadline (t.elapsed + dt) }
      | .holdover t => .holdover { t with elapsed := min t.deadline (t.elapsed + dt) }
    let code := match s.monitor.state with
      | .unlocked => 0
      | .acquiring _ => 1
      | .locked _ => 2
      | .holdover _ => 3
    let elapsed := match reading with
      | .unlocked => 0
      | .acquiring t => t.elapsed
      | .locked t => t.elapsed
      | .holdover t => t.elapsed
    exec (.readTimebase p dt) s = .next (answered { s with monitor := { s.monitor with state := reading } } p
      (.okData (leBytes 1 code ++ leBytes 4 s.monitor.cycleCount.toNat ++ leBytes 2 s.monitor.cycleLength
        ++ leBytes 2 s.monitor.tolerance ++ leBytes 1 s.monitor.holdoverLimit ++ leBytes 4 s.monitor.earlyMarks
        ++ leBytes 1 s.monitor.run ++ leBytes 4 elapsed)))

/-- Every step keeps the law of the timebase. -/
def Obligations.EveryStepKeepsTheTimebaseLaw : Prop := KeptByEveryStep TimebaseLaw

/-! ### The Stream Table (03) -/

/-- DEFINE-STREAM from the holder writes the lowest-numbered FREE slot whole, drops the tag's stray entry, appends
STREAM_DEFINED and answers the slot; wrong arguments, a tag in use and a full table are refused, in that order. (The answer is
given when the record is stored: log 11.) -/
def Obligations.DefineStreamTakesTheLowestFreeSlot : Prop :=
  ∀ (s : State) (p : Port) (args : List Byte), Holds s p → InHand s p 0x10 args →
    (defineArgs args = none → exec (.defineStream p) s = .next (answered s p (.bare .badValue)))
    ∧ ∀ (tag : Half) (d : Definition) (named : PerGrade (Option GradeSetting)), defineArgs args = some (tag, d, named) →
      let unnamed : GradeSetting := { threshold := 0, step := 10, urgent := false }
      let record : Record :=
        { definition := d,
          settings := { loss := named.loss.getD unnamed, timing := named.timing.getD unnamed,
                        order := named.order.getD unnamed, path := named.path.getD unnamed },
          base := 0, high := 0, acceptedSet := 0, trackerA := { mark := none, stamp := 0 },
          trackerB := { mark := none, stamp := 0 }, refSeq := 0, refTick := 0, lastCycle := 0, history := [],
          tallies := .all 0, marks := .all (.all 0), gapStamp := s.intake.counters.gapCount, intervals := .all 0,
          grades := .all { current := 200, worst := 200, tripped := false }, intervalsRated := 0 }
      (¬Unmapped s tag → exec (.defineStream p) s = .next (answered s p (.bare .tagInUse)))
      ∧ (Unmapped s tag → (∀ n, n < 512 → (slotAt s.table n).state ≠ .free) →
          exec (.defineStream p) s = .next (answered s p (.bare .tableFull)))
      ∧ ∀ n, Unmapped s tag → n < 512 → (slotAt s.table n).state = .free → (∀ m, m < n → (slotAt s.table m).state ≠ .free) →
          exec (.defineStream p) s = .next (answered { s with
            table := { setSlot s.table n { state := .defined, tag := tag, record := record, parityGood := true } with
              strays := s.table.strays.filter (fun e => e.tag != tag) },
            appends := s.appends ++ [commandAppend .streamTable p
              (slotRecord s.monitor.cycleCount .streamDefined false n tag
                (portNumber p + if d.dual then 256 else 0))] } p (.okData (leBytes 2 n)))

/-- The arguments of DEFINE-STREAM, REDEFINE-STREAM, SET-GRADING and ARM-WATCH are accepted exactly when they are the bytes, in
the order of their rules, of values that lie in their ranges, and they are then read as those values. -/
def Obligations.ArgumentsReadBack : Prop :=
  (∀ (args : List Byte) (tag : Half) (d : Definition) (named : PerGrade (Option GradeSetting)),
    defineArgs args = some (tag, d, named) ↔
      ValidTag tag ∧ DefinitionInRange d ∧ NamedInRange named
        ∧ (args = leBytes 2 tag.toNat ++ definitionArgBytes d ++ presenceArgBytes named
          ∨ (named = .all none ∧ args = leBytes 2 tag.toNat ++ definitionArgBytes d)))
  ∧ (∀ (args : List Byte) (n : Nat) (d : Definition) (named : PerGrade (Option GradeSetting)),
    redefineArgs args = some (n, d, named) ↔
      n ≤ 511 ∧ DefinitionInRange d ∧ NamedInRange named
        ∧ (args = leBytes 2 n ++ definitionArgBytes d ++ presenceArgBytes named
          ∨ (named = .all none ∧ args = leBytes 2 n ++ definitionArgBytes d)))
  ∧ (∀ (args : List Byte) (n : Nat) (named : PerGrade (Option GradeSetting)),
    gradingArgs args = some (n, named) ↔ n ≤ 511 ∧ NamedInRange named ∧ args = leBytes 2 n ++ presenceArgBytes named)
  ∧ ∀ (args : List Byte) (a : ArmArgs), armArgs args = some a ↔ ArmArgsInRange a ∧ args = armArgBytes a

/-- REDEFINE-STREAM from the holder installs the definition and the settings named and clears window, trackers, reference, last
accepted cycle and history, keeping all the rest; a change of the paths is refused. RETIRE-STREAM makes a slot in any state FREE
and clean and appends STREAM_RETIRED. Wrong arguments are refused. (RETIRE-STREAM's answer is given when the record is stored:
log 11.) -/
def Obligations.StreamsAreRedefinedAndRetired : Prop :=
  (∀ (s : State) (p : Port) (n : Nat) (args : List Byte) (d : Definition) (named : PerGrade (Option GradeSetting)),
    Holds s p → InHand s p 0x11 args → redefineArgs args = some (n, d, named) → Readable s n →
    let sl := slotAt s.table n
    let r := sl.record
    (r.definition.dual = d.dual →
      exec (.redefineStream p false) s = .next (answered (putSlot s n { sl with
        state := .defined,
        record := { r with
          definition := d,
          settings := { loss := named.loss.getD r.settings.loss, timing := named.timing.getD r.settings.timing,
                        order := named.order.getD r.settings.order, path := named.path.getD r.settings.path },
          base := 0, high := 0, acceptedSet := 0, trackerA := { mark := none, stamp := 0 },
          trackerB := { mark := none, stamp := 0 }, refSeq := 0, refTick := 0, lastCycle := 0, history := [] } })
        p (.bare .ok)))
    ∧ (r.definition.dual ≠ d.dual →
      exec (.redefineStream p false) s = .next (answered s p (.bare .badValue))))
  ∧ (∀ (s : State) (p : Port) (n : Nat), Holds s p → n ≤ 511 → InHand s p 0x12 (leBytes 2 n) →
    let sl := slotAt s.table n
    (sl.state = .free → exec (.retireStream p) s = .next (answered s p (.bare .noSuchStream)))
    ∧ (sl.state ≠ .free →
      exec (.retireStream p) s = .next (answered { s with
        table := setSlot s.table n Slot.free,
        appends := s.appends ++ [commandAppend .streamTable p
          (slotRecord s.monitor.cycleCount .streamRetired false n sl.tag
            (portNumber p + 256 * slotStateNumber sl.state))] } p (.bare .ok))))
  ∧ ∀ (s : State) (p : Port) (args : List Byte), Holds s p →
    (InHand s p 0x11 args → redefineArgs args = none →
      exec (.redefineStream p false) s = .next (answered s p (.bare .badValue)))
    ∧ (InHand s p 0x12 args → (args.length ≠ 2 ∨ 511 < halfAt args 0) →
      exec (.retireStream p) s = .next (answered s p (.bare .badValue)))

/-- READ-DEFINITION answers the 26 bytes of a slot's state, tag, definition and grade settings, and READ-GRADES the 35 bytes of
its state, grades and interval counts; neither changes anything. -/
def Obligations.DefinitionAndGradesAreRead : Prop :=
  ∀ (s : State) (p : Port) (n : Nat), n ≤ 511 → Readable s n →
    let sl := slotAt s.table n
    let r := sl.record
    let setting (c : GradeSetting) : List Byte :=
      leBytes 1 c.threshold ++ leBytes 1 c.step ++ [if c.urgent then 1 else 0]
    let grade (g : GradeState) (c : GradeSetting) : List Byte :=
      leBytes 1 g.current ++ leBytes 1 g.worst ++ setting c ++ [if g.tripped then 1 else 0]
    let definitionData := leBytes 1 (slotStateNumber sl.state) ++ leBytes 2 sl.tag.toNat ++ leBytes 3 r.definition.period
      ++ leBytes 3 r.definition.lateWindow ++ leBytes 2 r.definition.jump ++ [if r.definition.dual then 1 else 0]
      ++ leBytes 2 r.definition.silence ++ setting r.settings.loss ++ setting r.settings.timing
      ++ setting r.settings.order ++ setting r.settings.path
    let gradesData := leBytes 1 (slotStateNumber sl.state) ++ grade r.grades.loss r.settings.loss
      ++ grade r.grades.timing r.settings.timing ++ grade r.grades.order r.settings.order
      ++ grade r.grades.path r.settings.path ++ leBytes 2 r.intervals.loss ++ leBytes 2 r.intervals.timing
      ++ leBytes 2 r.intervals.order ++ leBytes 2 r.intervals.path ++ leBytes 2 r.intervalsRated
    definitionData.length = 26 ∧ gradesData.length = 35
    ∧ (InHand s p 0x13 (leBytes 2 n) →
        exec (.readDefinition p false) s = .next (answered s p (.okData definitionData)))
    ∧ (InHand s p 0x22 (leBytes 2 n) → exec (.readGrades p false) s = .next (answered s p (.okData gradesData)))

/-- READ-WINDOW answers the 64 bytes of a slot's window, reference, trackers and history, with everything absent in DEFINED.
READ-SHEET answers the 64 bytes of the tally sheet, the tallies themselves or what they have grown by since the port's marks,
closed by the check byte. Neither changes anything. -/
def Obligations.WindowAndSheetAreRead : Prop :=
  ∀ (s : State) (p : Port) (n : Nat), n ≤ 511 → Readable s n →
    let sl := slotAt s.table n
    let r := sl.record
    let tracker (t : Tracker) : List Byte :=
      match t.mark with
      | some high => [1] ++ leBytes 2 high.toNat ++ [t.stamp]
      | none => [0, 0, 0, t.stamp]
    (InHand s p 0x17 (leBytes 2 n) → sl.state = .defined →
      exec (.readWindow p false) s = .next (answered s p (.okData (leBytes 1 1 ++ List.replicate 63 0))))
    ∧ (InHand s p 0x17 (leBytes 2 n) → sl.state ≠ .defined →
      exec (.readWindow p false) s = .next (answered s p (.okData
        (leBytes 1 (slotStateNumber sl.state) ++ leBytes 2 r.base.toNat ++ leBytes 2 r.high.toNat
          ++ leBytes 4 r.acceptedSet.toNat ++ leBytes 4 r.lastCycle.toNat ++ leBytes 2 r.refSeq.toNat
          ++ leBytes 4 r.refTick.toNat ++ tracker r.trackerA
          ++ (if r.definition.dual then tracker r.trackerB else [0, 0, 0, 0]) ++ leBytes 1 r.history.length
          ++ r.history.flatMap historyLayout ++ List.replicate (36 - 9 * r.history.length) 0))))
    ∧ ∀ mode, mode ≤ 1 → InHand s p 0x19 (leBytes 2 n ++ leBytes 1 mode) →
      let value (c : Tally) : List Byte :=
        leBytes 4 (if mode = 1 then r.tallies.get c - (r.marks.get p).get c else r.tallies.get c)
      let body := leBytes 2 n ++ leBytes 1 (slotStateNumber sl.state) ++ leBytes 2 sl.tag.toNat ++ leBytes 1 mode
        ++ value .accepted ++ value .dropped ++ value .late ++ value .reordered ++ value .rescued ++ value .duplicate
        ++ value .straggler ++ value .missedA ++ value .missedB ++ leBytes 2 (categoryBits (fun c => decide (r.tallies.get c = 4294967295))).toNat
        ++ leBytes 1 r.grades.loss.current ++ leBytes 1 r.grades.timing.current ++ leBytes 1 r.grades.order.current
        ++ leBytes 1 r.grades.path.current
        ++ leBytes 1 ((if r.grades.loss.tripped then 1 else 0) + (if r.grades.timing.tripped then 2 else 0)
          + (if r.grades.order.tripped then 4 else 0) + (if r.grades.path.tripped then 8 else 0))
        ++ leBytes 4 (s.intake.counters.gapCount - r.gapStamp)
        ++ leBytes 4 (if sl.state = .defined then 0 else r.lastCycle.toNat) ++ leBytes 4 s.monitor.cycleCount.toNat
        ++ leBytes 2 r.intervalsRated
      body.length = 63 ∧ sumBytes (body ++ [checkByte body]) = 0
        ∧ exec (.readSheet p false) s = .next (answered s p (.okData (body ++ [checkByte body])))

/-- A command that names a slot answers NO_SUCH_STREAM for a FREE slot and FAULTED for a FAULTED one; a parity failure at its
access makes the slot FAULTED, hands RECORD_FAULT with detail 6 over and answers FAULTED. Nothing else changes. (When storage
loses its parity is an operand of the command: log 5.) -/
def Obligations.SlotCommandsStopAtFreeFaultedAndFailingSlots : Prop :=
  ∀ (s : State) (p : Port) (n : Nat) (upset : Bool) (c : Instr), NamesSlot s p n upset c →
    let sl := slotAt s.table n
    let struck := putSlot s n { sl with parityGood := sl.parityGood && !upset }
    (sl.state = .free → exec c s = .next (answered struck p (.bare .noSuchStream)))
    ∧ (sl.state = .faulted → exec c s = .next (answered struck p (.bare .faulted)))
    ∧ (ParityFails s n upset →
        exec c s = .next (answered (afterFault s s.monitor.cycleCount n 6) p (.bare .faulted)))

/-- LIST-STREAMS answers slots outside FREE from a first slot on, with the slot to resume at; READ-STRAYS answers a part of the
stray list; neither changes anything. CLEAR-STRAYS from the holder empties the list. -/
def Obligations.TableIsListedAndStraysAreReadAndCleared : Prop :=
  ∀ (s : State) (p : Port),
    (∀ first limit, first ≤ 511 → 1 ≤ limit → limit ≤ 12 → InHand s p 0x14 (leBytes 2 first ++ leBytes 1 limit) →
      let held := (List.range 512).filter (fun n => decide (first ≤ n ∧ (slotAt s.table n).state ≠ .free))
      let returned := held.take limit
      let resume := if limit < held.length then returned.getLast?.getD 0 + 1 else 512
      exec (.listStreams p) s = .next (answered s p (.okData
        (leBytes 1 returned.length ++ leBytes 2 resume ++ returned.flatMap (fun n =>
          leBytes 2 n ++ leBytes 1 (slotStateNumber (slotAt s.table n).state)
            ++ leBytes 2 (slotAt s.table n).tag.toNat)))))
    ∧ (∀ first limit, first ≤ 15 → 1 ≤ limit → limit ≤ 4 → InHand s p 0x15 (leBytes 1 first ++ leBytes 1 limit) →
      let returned := (s.table.strays.drop first).take limit
      exec (.readStrays p) s = .next (answered s p (.okData
        (leBytes 1 s.table.strays.length ++ leBytes 1 returned.length ++ returned.flatMap (fun e =>
          leBytes 2 e.tag.toNat ++ leBytes 2 e.count ++ leBytes 4 e.firstSeen.toNat ++ leBytes 4 e.lastSeen.toNat
            ++ leBytes 1 (pathNumber e.lastPath))))))
    ∧ (Holds s p → InHand s p 0x16 [] →
      exec (.clearStrays p) s = .next (answered { s with table := { s.table with strays := [] } } p (.bare .ok)))
    ∧ (∀ args, InHand s p 0x14 args →
        (args.length ≠ 3 ∨ 511 < halfAt args 0 ∨ byteAt args 2 = 0 ∨ 12 < byteAt args 2) →
        exec (.listStreams p) s = .next (answered s p (.bare .badValue)))
    ∧ ∀ args, InHand s p 0x15 args →
        (args.length ≠ 2 ∨ 15 < byteAt args 0 ∨ byteAt args 1 = 0 ∨ 4 < byteAt args 1) →
        exec (.readStrays p) s = .next (answered s p (.bare .badValue))

/-- The silence walk of the oldest cycle event visits the slots in order. A TRACKING stream whose cycles elapsed, up to the
count the event carries, reach its limit becomes STALE with STREAM_SILENT; other slots are passed over. A parity failure at the
check makes the slot FAULTED with RECORD_FAULT detail 2; one at the read for the record leaves STALE overtaken by FAULTED, and
both records without snapshot. (That the walk is one slot a step is the model's choice: log 18.) -/
def Obligations.SilenceCheckMakesSilentStreamsStale : Prop :=
  ∀ (s : State) (count : Word) (later : List Word) (n : Nat), Running s →
    s.table.silence = { events := count :: later, position := n } → n < 512 →
    let sl := slotAt s.table n
    let walk : SilenceWalk :=
      if n = 511 then { events := later, position := 0 } else { events := count :: later, position := n + 1 }
    let moved (t : State) : State := { t with table := { t.table with silence := walk } }
    let elapsed := if (count - sl.record.lastCycle).toInt < 0 then 0 else (count - sl.record.lastCycle).toNat
    (sl.state ≠ .tracking → exec (.silenceCheck { before := false, during := false }) s = .next (moved s))
    ∧ (sl.state = .tracking → sl.parityGood = true → elapsed < sl.record.definition.silence →
        exec (.silenceCheck { before := false, during := false }) s = .next (moved s))
    ∧ (sl.state = .tracking → sl.parityGood = true → sl.record.definition.silence ≤ elapsed →
        exec (.silenceCheck { before := false, during := false }) s = .next (moved
          { putSlot s n { sl with state := .stale } with
            appends := s.appends
              ++ [appendOf .streamTable (viewRecord count .streamSilent true n sl.tag sl.record elapsed)] })
        ∧ exec (.silenceCheck { before := false, during := true }) s = .next (moved
          { putSlot s n { sl with state := .faulted, parityGood := false } with
            appends := s.appends ++ accessAppends .streamTable none
              [slotRecord count .streamSilent true n sl.tag elapsed, slotRecord count .recordFault true n sl.tag 2] }))
    ∧ ∀ u, sl.state = .tracking → (sl.parityGood && !u.before) = false →
        exec (.silenceCheck u) s = .next (moved (afterFault s count n 2))

/-- A frame whose tag no slot holds is entered in the stray list: a listed tag counts up and moves to the front; a new one takes
the front, pushing the last of sixteen out, and STRAY_SEEN is handed over. Nothing is tallied. (That the Stream Table hands
STRAY_SEEN over: log 25.) -/
def Obligations.StrayFrameIsListed : Prop :=
  ∀ (s : State) (u : Upset) (f : Frame) (rest : List Descriptor), FrameReady s f rest → Unmapped s f.tag →
    let cycle := s.monitor.cycleCount
    let left : Intake := { withoutFront s.intake rest with frameCount := none }
    (∀ before e after, s.table.strays = before ++ e :: after → e.tag = f.tag →
      (∀ x ∈ before ++ after, x.tag ≠ f.tag) →
      exec (.frameTake u) s = .next { s with
        intake := left,
        table := { s.table with strays :=
          { e with count := min 65535 (e.count + 1), lastSeen := cycle, lastPath := f.path } :: (before ++ after) } })
    ∧ ((∀ x ∈ s.table.strays, x.tag ≠ f.tag) →
      exec (.frameTake u) s = .next { s with
        intake := { left with counters := { s.intake.counters with
          strayEvictions := if s.table.strays.length < 16 then s.intake.counters.strayEvictions
                            else up1 s.intake.counters.strayEvictions } },
        table := { s.table with strays :=
          { tag := f.tag, count := 1, firstSeen := cycle, lastSeen := cycle, lastPath := f.path }
            :: s.table.strays.take 15 },
        appends := s.appends ++ [appendOf .streamTable
          (bareRecord cycle .straySeen false (f.tag.toNat + 65536 * pathNumber f.path))] })

/-- Every step keeps the law of the tag map and the law of the stray list. -/
def Obligations.EveryStepKeepsTheTagMapAndStrayLaws : Prop := KeptByEveryStep TagMapLaw ∧ KeptByEveryStep StrayLaw

/-! ### Sequence window and frame classification (04) -/

/-- A frame for a FAULTED slot is discarded and counted; one whose slot fails its parity check makes it FAULTED with
RECORD_FAULT, detail 1, and is discarded and counted too; one of a DUAL stream on path NONE is discarded and counted as
malformed. The record is not touched. (When storage loses its parity is an operand: log 5. The model's own note of the count:
log 19. That the Stream Table hands RECORD_FAULT over: log 25.) -/
def Obligations.UnusableFrameIsDiscarded : Prop :=
  ∀ (s : State) (u : Upset) (f : Frame) (rest : List Descriptor) (n : Nat), FrameReady s f rest → MapsTo s f.tag n →
    let sl := slotAt s.table n
    let c := s.intake.counters
    let faulted : Intake := { withoutFront s.intake rest with
      frameCount := some .faultedDiscard, counters := { c with faultedDiscards := up1 c.faultedDiscards } }
    (sl.state = .faulted → exec (.frameTake u) s = .next
      { putSlot s n { sl with parityGood := sl.parityGood && !u.before } with intake := faulted })
    ∧ (ParityFails s n u.before →
      exec (.frameTake u) s = .next { afterFault s s.monitor.cycleCount n 1 with intake := faulted })
    ∧ (Readable s n → u.before = false → sl.record.definition.dual = true → f.path = .none →
      exec (.frameTake u) s = .next { s with intake := { withoutFront s.intake rest with
        frameCount := some .malformedClass, counters := { c with malformedClass := up1 c.malformedClass } } })

/-- The first frame of a DEFINED stream acquires it: the slot is TRACKING, window, reference, tracker and history start from the
frame, ACCEPTED is raised, and STREAM_ACQUIRED is handed over with the record as it then stands; the hand-off to the Watch Block
waits for it (log 21). When the read at the end of the access fails its parity, all that stands, the slot is FAULTED,
STREAM_ACQUIRED carries no snapshot and no lead-in, RECORD_FAULT with detail 1 follows it, and the hand-off carries no snapshot
and no history. -/
def Obligations.FrameOfADefinedStreamAcquiresIt : Prop :=
  ∀ (s : State) (f : Frame) (rest : List Descriptor) (n : Nat), FrameReady s f rest → MapsTo s f.tag n →
    (slotAt s.table n).state = .defined → (slotAt s.table n).parityGood = true →
    ¬((slotAt s.table n).record.definition.dual = true ∧ f.path = .none) → AccountsOk (slotAt s.table n).record →
    let sl := slotAt s.table n
    let r := sl.record
    let cycle := s.monitor.cycleCount
    let tracker : Tracker :=
      { mark := some f.seq, stamp := if r.definition.dual then epochOf s.intake f.path else 0 }
    let onB := r.definition.dual = true ∧ f.path = .b
    let record : Record := { r with
      base := f.seq, high := f.seq, acceptedSet := 1, refSeq := f.seq, refTick := f.tick, lastCycle := cycle,
      trackerA := if onB then r.trackerA else tracker, trackerB := if onB then tracker else r.trackerB,
      tallies := { r.tallies with accepted := up1 r.tallies.accepted },
      history := { seq := f.seq, path := f.path, tick := f.tick, cats := 1 } :: r.history.take 3 }
    let detail := f.seq.toNat + 65536 * pathNumber f.path
    let handoff : Handoff :=
      { slot := n, tag := sl.tag, seq := f.seq, path := f.path, tick := f.tick,
        incs := { (Nine.all 0 : Nine Nat) with accepted := 1 }, cycle := cycle,
        snapshot := some { dropped := r.tallies.dropped, late := r.tallies.late, reordered := r.tallies.reordered },
        history := record.history }
    exec (.frameTake { before := false, during := false }) s = .next
      { putSlot s n { sl with state := .tracking, record := record } with
        intake := { withoutFront s.intake rest with frameCount := none },
        appends := s.appends ++ [appendOf .classifier (viewRecord cycle .streamAcquired false n sl.tag record detail)],
        classifier := some handoff }
    ∧ exec (.frameTake { before := false, during := true }) s = .next
      { putSlot s n { sl with state := .faulted, parityGood := false, record := record } with
        intake := { withoutFront s.intake rest with frameCount := none },
        appends := s.appends ++ accessAppends .classifier none
          [slotRecord cycle .streamAcquired false n sl.tag detail, slotRecord cycle .recordFault true n sl.tag 1],
        classifier := some { handoff with snapshot := none, history := [] } }

/-- A frame of a TRACKING or STALE stream is classified, and its increments go into the tallies and the interval counts, the
frame to the front of the history; an accepted frame is the last accepted cycle and makes a STALE stream TRACKING. The frame's
own records, SEQUENCE_BREAK before STREAM_RESUMED, carry the record as it then stands; the hand-off to the Watch Block is made
at once when there are none, and waits for them else (log 21). When the read at the end of the access fails its parity, all that
stands, the slot is FAULTED, the frame's own records carry no snapshot and no lead-in, RECORD_FAULT with detail 1 follows them,
and the hand-off waits and carries no snapshot and no history. -/
def Obligations.FrameOfATrackedStreamIsAccounted : Prop :=
  ∀ (s : State) (f : Frame) (rest : List Descriptor) (n : Nat), FrameReady s f rest → MapsTo s f.tag n →
    (slotAt s.table n).state = .tracking ∨ (slotAt s.table n).state = .stale →
    (slotAt s.table n).parityGood = true →
    ¬((slotAt s.table n).record.definition.dual = true ∧ f.path = .none) →
    let sl := slotAt s.table n
    let cycle := s.monitor.cycleCount
    let c := classifyTracked sl.record f (epochOf s.intake f.path)
    let accepted := c.incs.accepted ≠ 0
    let add16 (a b : Nat) : Nat := min 65535 (a + b)
    let add32 (a b : Nat) : Nat := min 4294967295 (a + b)
    let r := c.record
    let record : Record := { r with
      tallies := { accepted := add32 r.tallies.accepted c.incs.accepted, dropped := add32 r.tallies.dropped c.incs.dropped,
                   late := add32 r.tallies.late c.incs.late, reordered := add32 r.tallies.reordered c.incs.reordered,
                   rescued := add32 r.tallies.rescued c.incs.rescued, duplicate := add32 r.tallies.duplicate c.incs.duplicate,
                   straggler := add32 r.tallies.straggler c.incs.straggler, missedA := add32 r.tallies.missedA c.incs.missedA,
                   missedB := add32 r.tallies.missedB c.incs.missedB },
      intervals := { loss := add16 r.intervals.loss c.incs.dropped, timing := add16 r.intervals.timing c.incs.late,
                     order := add16 r.intervals.order (c.incs.reordered + c.incs.straggler),
                     path := add16 r.intervals.path (c.incs.missedA + c.incs.missedB) },
      lastCycle := if accepted then cycle else r.lastCycle,
      history := { seq := f.seq, path := f.path, tick := f.tick, cats := categoriesOf c.incs } :: r.history.take 3 }
    let d := (f.seq - sl.record.high).toInt
    let broken := 32 ≤ (f.seq - sl.record.base).toNat ∧ ((sl.record.definition.jump : Int) < d
      ∨ (d ≤ 0 ∧ sl.record.definition.jump < (sl.record.base - f.seq).toNat))
    let resumed := sl.state = .stale ∧ accepted
    let records (make : Kind → Bool → Nat → Condition) : List Condition :=
      (if broken then [make .sequenceBreak true (sl.record.high.toNat + 65536 * f.seq.toNat)] else [])
      ++ (if resumed then [make .streamResumed false (cycle - sl.record.lastCycle).toNat] else [])
    let own := records (fun kind urgent detail => viewRecord cycle kind urgent n sl.tag record detail)
    let stripped := records (fun kind urgent detail => slotRecord cycle kind urgent n sl.tag detail)
    let handoff : Handoff :=
      { slot := n, tag := sl.tag, seq := f.seq, path := f.path, tick := f.tick, incs := c.incs, cycle := cycle,
        snapshot := some
          { dropped := record.tallies.dropped, late := record.tallies.late, reordered := record.tallies.reordered },
        history := record.history }
    exec (.frameTake { before := false, during := false }) s = .next
      { putSlot s n { sl with state := if accepted then .tracking else sl.state, record := record } with
        intake := { withoutFront s.intake rest with frameCount := none },
        appends := s.appends ++ accessAppends .classifier none own,
        classifier := if own = [] then none else some handoff,
        watch := if own = [] then { s.watch with handoffs := s.watch.handoffs ++ [handoff] } else s.watch }
    ∧ exec (.frameTake { before := false, during := true }) s = .next
      { putSlot s n { sl with state := .faulted, parityGood := false, record := record } with
        intake := { withoutFront s.intake rest with frameCount := none },
        appends := s.appends ++ accessAppends .classifier none
          (stripped ++ [slotRecord cycle .recordFault true n sl.tag 1]),
        classifier := some { handoff with snapshot := none, history := [] } }

/-- How a frame of a tracked stream is judged by the window: with S its sequence, B the base, H the high mark, J the jump limit,
a sequence in B..B+31 is DUPLICATE when accepted already, and else ACCEPTED, moving H when it is after H, and when it is not
counting as REORDERED if its own path brought it out of order and else, in a DUAL stream, as RESCUED; one after the window and
at most J after H slides the window; one at most J before B is a STRAGGLER; any other breaks the sequence and starts the window
again. (A sequence exactly half the number space from H counts as before it: log 14.) -/
def Obligations.WindowJudgesTheFrame : Prop :=
  ∀ (r : Record) (f : Frame) (epoch : Byte) (ooo : Bool),
    let S := f.seq
    let zero : Nine Nat := .all 0
    let late := if isLate r f then 1 else 0
    let refSeq := if isLate r f then r.refSeq else S
    let refTick := if isLate r f then r.refTick else f.tick
    let offset := (S - r.base).toNat
    let d := (S - r.high).toInt
    let j := judgeWindow r f epoch ooo
    (offset < 32 → r.acceptedSet.getLsbD offset = true →
      j = { record := r, incs := { zero with duplicate := 1 }, broke := false })
    ∧ (offset < 32 → r.acceptedSet.getLsbD offset = false → 0 < d →
      j = { record := { r with acceptedSet := r.acceptedSet ||| 1#32 <<< offset, high := S, refSeq := refSeq, refTick := refTick },
            incs := { zero with accepted := 1, late := late }, broke := false })
    ∧ (offset < 32 → r.acceptedSet.getLsbD offset = false → d ≤ 0 →
      j = { record := { r with acceptedSet := r.acceptedSet ||| 1#32 <<< offset, refSeq := refSeq, refTick := refTick },
            incs := { zero with accepted := 1, late := late, reordered := if ooo then 1 else 0,
                                rescued := if r.definition.dual = true ∧ ooo = false then 1 else 0 },
            broke := false })
    ∧ (32 ≤ offset → 0 < d → d ≤ r.definition.jump →
      j = { record := { r with base := S - 31, high := S,
                               acceptedSet := (r.acceptedSet >>> (S - 31 - r.base).toNat) ||| 0x80000000#32,
                               refSeq := refSeq, refTick := refTick },
            incs := { zero with accepted := 1, late := late, dropped := slideDrops r S }, broke := false })
    ∧ (32 ≤ offset → d ≤ 0 → (r.base - S).toNat ≤ r.definition.jump →
      j = { record := r, incs := { zero with straggler := 1 }, broke := false })
    ∧ (32 ≤ offset → (r.definition.jump : Int) < d ∨ (d ≤ 0 ∧ r.definition.jump < (r.base - S).toNat) →
      let tracker : Tracker := { mark := some S, stamp := if r.definition.dual then epoch else 0 }
      let absent : Tracker := { mark := none, stamp := 0 }
      let onB := r.definition.dual = true ∧ f.path = .b
      j = { record := { r with base := S, high := S, acceptedSet := 1, refSeq := S, refTick := f.tick,
                               trackerA := if onB then absent else tracker, trackerB := if onB then tracker else absent },
            incs := { zero with accepted := 1 }, broke := true })

/-- Before the window, a frame's own path is tracked: it is out of order when it lies before the path's high mark; in a DUAL
stream, when the stamp is the path's current epoch, the sequences skipped since the high mark, 1 to J of them, are the path's
misses; the high mark moves to a later sequence and the tracker takes the current epoch. A SINGLE stream has one tracker, stamp
0, and no misses. (That a copy exactly half the number space from its path's high mark counts as before it, and so as out of
order, is the model's reading: log 14.) -/
def Obligations.PathTrackingCountsMissesAndOrder : Prop :=
  ∀ (r : Record) (f : Frame) (epoch : Byte),
    let onB := r.definition.dual = true ∧ f.path = .b
    let mine := if onB then r.trackerB else r.trackerA
    let next : Tracker :=
      { mark := some (match mine.mark with
          | none => f.seq
          | some high => if 0 < (f.seq - high).toInt then f.seq else high),
        stamp := if r.definition.dual then epoch else 0 }
    let tracked : Record := if onB then { r with trackerB := next } else { r with trackerA := next }
    let ooo := match mine.mark with
      | none => false
      | some high => decide ((f.seq - high).toInt < 0)
    let misses := match mine.mark with
      | none => 0
      | some high =>
        let gap := (f.seq - high).toInt - 1
        if r.definition.dual = true ∧ mine.stamp = epoch ∧ 1 ≤ gap ∧ gap ≤ r.definition.jump then gap.toNat else 0
    let judged := judgeWindow tracked f epoch ooo
    (classifyTracked r f epoch).record = judged.record
      ∧ (classifyTracked r f epoch).incs = (match f.path with
          | .a => if r.definition.dual then { judged.incs with missedA := misses } else judged.incs
          | .b => if r.definition.dual then { judged.incs with missedB := misses } else judged.incs
          | .none => judged.incs)

/-- A slide counts as dropped exactly the sequences from the old base up to the new one that were not accepted, at most J − 1 of
them while the window law holds. An accepted frame is late when it is at most J from the reference in either direction and came
more than W ticks after the tick the reference and the period P give it. -/
def Obligations.SlideDropsAndLatenessAreComputed : Prop :=
  (∀ (r : Record) (S : Half),
    slideDrops r S = (List.range (S - 31 - r.base).toNat).countP (fun i => !r.acceptedSet.getLsbD i))
  ∧ (∀ (r : Record) (S : Half), WindowOk r → 32 ≤ r.definition.jump → 32 ≤ (S - r.base).toNat → 0 < (S - r.high).toInt →
      (S - r.high).toInt ≤ r.definition.jump → slideDrops r S ≤ r.definition.jump - 1)
  ∧ ∀ (r : Record) (f : Frame),
    let d := (f.seq - r.refSeq).toInt
    let expected := r.refTick + BitVec.ofInt 32 (d * r.definition.period)
    isLate r f = true ↔
      -(r.definition.jump : Int) ≤ d ∧ d ≤ r.definition.jump ∧ (r.definition.lateWindow : Int) < (f.tick - expected).toInt

/-- Every step keeps the window law: B ≤ H ≤ B+31, H accepted, nothing accepted above H. -/
def Obligations.EveryStepKeepsTheWindowLaw : Prop := KeptByEveryStep WindowLaw

/-! ### Tallies, marks and sweeps (05) -/

/-- MARK over a range starts a walk that visits the slots in ascending order: a good record's marks of the issuing port become
its tallies and it is counted as marked; a FAULTED slot, and one that becomes FAULTED at the visit (RECORD_FAULT, detail 6), is
counted as faulted; a FREE slot is skipped. The last visit forms the answer from the two counts. (That RECORD_FAULT carries the
cycle count at the visit is the model's choice: log 28.) -/
def Obligations.MarkWalksItsRange : Prop :=
  (∀ (s : State) (p : Port) (first last : Nat), first ≤ last → last ≤ 511 →
    InHand s p 0x18 (leBytes 2 first ++ leBytes 2 last) →
    exec (.mark p) s = .next { taken s p with table := { s.table with
      markWalks := s.table.markWalks.set p (some { last := last, position := first, marked := 0, faulted := 0 }) } })
  ∧ (∀ (s : State) (p : Port) (args : List Byte), InHand s p 0x18 args →
    (args.length ≠ 4 ∨ halfAt args 2 < halfAt args 0 ∨ 511 < halfAt args 2) →
    exec (.mark p) s = .next (answered s p (.bare .badValue)))
  ∧ ∀ (s : State) (p : Port) (w : MarkWalk) (upset : Bool), Running s → s.table.markWalks.get p = some w → w.position < 512 →
    let n := w.position
    let sl := slotAt s.table n
    let walking (t : State) (next : Option MarkWalk) : State :=
      { t with table := { t.table with markWalks := t.table.markWalks.set p next } }
    let onward (t : State) (marked faulted : Nat) : State :=
      if n < w.last then
        walking t (some { last := w.last, position := n + 1, marked := marked, faulted := faulted })
      else withAnswer (walking t none) p
        (if marked ≠ 0 then { code := .ok, data := leBytes 2 marked ++ leBytes 2 faulted }
          else if faulted ≠ 0 then { code := .faulted, data := leBytes 2 faulted }
          else { code := .noSuchStream, data := [] })
    (sl.state = .free → exec (.markVisit p false) s = .next (onward s w.marked w.faulted))
    ∧ (sl.state = .faulted → exec (.markVisit p false) s = .next (onward s w.marked (w.faulted + 1)))
    ∧ (Readable s n → exec (.markVisit p false) s = .next (onward
        (putSlot s n { sl with record := { sl.record with marks := sl.record.marks.set p sl.record.tallies } })
        (w.marked + 1) w.faulted))
    ∧ (ParityFails s n upset → exec (.markVisit p upset) s = .next
        (onward (afterFault s s.monitor.cycleCount n 6) w.marked (w.faulted + 1)))

/-- CLEAR-TALLIES from the holder and START-SCRUB from any port start a sweep over a range and are answered STARTED, or BUSY
while one is in flight; READ-SWEEP answers what is in flight; ABORT-SWEEP from the starter or the holder ends it with SWEEP_DONE
to the starter and, for the part done of a clear, TALLIES_CLEARED, and is else refused. (ABORT-SWEEP's answer is given when the
record is stored: log 11.) -/
def Obligations.SweepsAreStartedReadAndAborted : Prop :=
  ∀ (s : State) (p : Port),
    (∀ first last, first ≤ last → last ≤ 511 →
      let begun (kind : SweepKind) : Sweep :=
        { kind := kind, first := first, last := last, position := first, starter := p, faults := 0 }
      let started (kind : SweepKind) : State := { s with sweep := some (begun kind) }
      (Holds s p → InHand s p 0x1a (leBytes 2 first ++ leBytes 2 last) →
        (s.sweep = none → exec (.clearTallies p) s = .next (answered (started .clear) p (.bare .started)))
        ∧ (s.sweep ≠ none → exec (.clearTallies p) s = .next (answered s p (.bare .busy))))
      ∧ (InHand s p 0x1b (leBytes 2 first ++ leBytes 2 last) →
        (s.sweep = none → exec (.startScrub p) s = .next (answered (started .scrub) p (.bare .started)))
        ∧ (s.sweep ≠ none → exec (.startScrub p) s = .next (answered s p (.bare .busy)))))
    ∧ (InHand s p 0x1d [] → exec (.readSweep p) s = .next (answered s p (.okData
        (match s.sweep with
          | none => List.replicate 10 0
          | some w => [match w.kind with
                        | .clear => 1
                        | .scrub => 2]
              ++ leBytes 2 w.first ++ leBytes 2 w.last ++ leBytes 2 w.position ++ leBytes 1 (portNumber w.starter)
              ++ leBytes 2 w.faults))))
    ∧ (InHand s p 0x1c [] → s.sweep = none → exec (.abortSweep p) s = .next (answered s p (.bare .empty)))
    ∧ ∀ w, InHand s p 0x1c [] → s.sweep = some w →
      let lastDone := if w.position = w.first then 1023 else w.position - 1
      let word := lastDone + (if w.kind = .scrub then 1024 else 0) + 2048 + 4096 * w.faults
      let detail := w.first + 512 * lastDone + 262144 * portNumber w.starter + 1048576
      (w.starter ≠ p → ¬Holds s p → exec (.abortSweep p) s = .next (answered s p (.bare .notOwner)))
      ∧ (w.starter = p ∨ Holds s p →
        exec (.abortSweep p) s = .next (answered { s with
          sweep := none,
          appends := s.appends ++
            (if w.kind = .clear ∧ w.position ≠ w.first then
              [commandAppend .sweepEngine p (bareRecord s.monitor.cycleCount .talliesCleared false detail)] else []),
          posted := s.posted ++ [sentNotice .sweepEngine w.starter .sweepDone word] } p (.bare .ok)))

/-- Each step of a sweep visits its position and moves on; the last slot ends it with SWEEP_DONE to the starter, after
TALLIES_CLEARED for a clear. A clear step zeroes a record's tallies, marks, interval counts and intervals rated, makes its
grades clean and its gap stamp the present GAP_COUNT; a scrub step counts FAULTED slots and rewrites failing FREE storage clean;
a parity failure makes the slot FAULTED with RECORD_FAULT, detail 4 or 5, and is counted. No slot is visited while the starter's
answer STARTED is still to be given, and none by a step of the other kind. (That a step then changes nothing: log 2.) -/
def Obligations.SweepStepsClearAndScrub : Prop :=
  (∀ (s : State) (w : Sweep) (upset : Bool), s.sweep = some w →
    (¬StartAnswered s w ∨ w.kind = .scrub → exec (.clearStep upset) s = .next s)
    ∧ (¬StartAnswered s w ∨ w.kind = .clear → exec (.scrubStep upset) s = .next s))
  ∧ ∀ (s : State) (w : Sweep) (upset : Bool), Running s → s.sweep = some w → StartAnswered s w → w.position < 512 →
    let n := w.position
    let sl := slotAt s.table n
    let kindBit := if w.kind = .scrub then 1024 else 0
    let onward (t : State) (found : Nat) : State :=
      if n < w.last then { t with sweep := some { w with position := n + 1, faults := w.faults + found } }
      else { t with
        sweep := none,
        appends := t.appends ++
          (if w.kind = .clear then
            [appendOf .sweepEngine (bareRecord s.monitor.cycleCount .talliesCleared false
              (w.first + 512 * w.last + 262144 * portNumber w.starter))] else []),
        posted := t.posted
          ++ [sentNotice .sweepEngine w.starter .sweepDone (w.last + kindBit + 4096 * (w.faults + found))] }
    let clean : GradeState := { current := 200, worst := 200, tripped := false }
    let cleared : Record := { sl.record with
      tallies := .all 0, marks := .all (.all 0), intervals := .all 0, intervalsRated := 0, grades := .all clean,
      gapStamp := s.intake.counters.gapCount }
    (w.kind = .clear →
      (sl.state = .free ∨ sl.state = .faulted → exec (.clearStep false) s = .next (onward s 0))
      ∧ (Readable s n → exec (.clearStep false) s = .next (onward (putSlot s n { sl with record := cleared }) 0))
      ∧ (ParityFails s n upset →
          exec (.clearStep upset) s = .next (onward (afterFault s s.monitor.cycleCount n 4) 1)))
    ∧ (w.kind = .scrub →
      (sl.state = .faulted → exec (.scrubStep false) s = .next (onward s 1))
      ∧ (sl.state ≠ .faulted → sl.parityGood = true → exec (.scrubStep false) s = .next (onward s 0))
      ∧ (sl.state = .free → (sl.parityGood && !upset) = false →
          exec (.scrubStep upset) s = .next (onward (putSlot s n Slot.free) 1))
      ∧ (ParityFails s n upset →
          exec (.scrubStep upset) s = .next (onward (afterFault s s.monitor.cycleCount n 5) 1)))

/-- Every step keeps the accounts of every record within their bounds, GAP_COUNT within its limit, and every gap stamp at most
GAP_COUNT outside a soft reset. -/
def Obligations.EveryStepKeepsTheAccounts : Prop := KeptByEveryStep AccountsLaw ∧ KeptByEveryStep GapLaw

/-! ### Grades and thresholds (06) -/

/-- The Rating Unit takes a cycle event: the cycles since the last rating count up; when they reach R they return to 0, and a
rating sweep starts at slot 0 or, with one running, RATING_SKIPS counts up. The row RATING_DUE is that event when it makes a
rating fall due, and nothing otherwise (log 15). -/
def Obligations.RatingFallsDueAtItsInterval : Prop :=
  ∀ (s : State) (k : Nat), Running s → s.rating.events = k + 1 →
    let r := s.rating
    (r.since + 1 < r.interval →
      exec .ratingCycleEvent s = .next { s with rating := { r with events := k, since := r.since + 1 } }
      ∧ exec .ratingDue s = .next s)
    ∧ (r.interval ≤ r.since + 1 →
      let due : State := { s with rating := { r with
        events := k, since := 0,
        sweep := match r.sweep with
          | none => some 0
          | some n => some n,
        skips := match r.sweep with
          | none => r.skips
          | some _ => up1 r.skips } }
      exec .ratingCycleEvent s = .next due ∧ exec .ratingDue s = .next due)

/-- A rating step rates the four grades of a TRACKING or STALE record from its interval counts: current is 200 − min(199, count
× step), worst follows it down, the tripped flag follows the trip condition; the counts return to 0 and intervals rated goes up.
Each flag that changes hands over GRADE_TRIPPED, with the grade's urgency, or GRADE_CLEARED, in grade order, with the record as
it then stands; a parity failure at that read strips them and adds RECORD_FAULT, detail 3. Other slots are passed over; a
failure at the start makes the slot FAULTED. The sweep ends after slot 511. -/
def Obligations.RatingStepRatesTheRecord : Prop :=
  ∀ (s : State) (n : Nat) (u : Upset), Running s → s.rating.sweep = some n → n < 512 →
    let sl := slotAt s.table n
    let r := sl.record
    let cycle := s.monitor.cycleCount
    let moved (t : State) : State :=
      { t with rating := { s.rating with sweep := if n = 511 then none else some (n + 1) } }
    let grade (g : Grade) : Nat := 200 - min 199 (r.intervals.get g * (r.settings.get g).step)
    let trips (g : Grade) : Bool :=
      decide ((r.settings.get g).threshold = 255 ∨ (1 ≤ (r.settings.get g).threshold ∧ grade g ≤ (r.settings.get g).threshold))
    let rated (g : Grade) : GradeState :=
      { current := grade g, worst := min (r.grades.get g).worst (grade g), tripped := trips g }
    let record : Record := { r with
      grades := { loss := rated .loss, timing := rated .timing, order := rated .order, path := rated .path },
      intervals := .all 0, intervalsRated := min 65535 (r.intervalsRated + 1) }
    let changes (make : Kind → Bool → Nat → Condition) (g : Grade) : List Condition :=
      let detail := gradeNumber g + 256 * grade g + 65536 * (r.settings.get g).threshold
      if (r.grades.get g).tripped = false ∧ trips g = true then [make .gradeTripped (r.settings.get g).urgent detail]
      else if (r.grades.get g).tripped = true ∧ trips g = false then [make .gradeCleared false detail]
      else []
    let records (make : Kind → Bool → Nat → Condition) : List Condition :=
      changes make .loss ++ changes make .timing ++ changes make .order ++ changes make .path
    let viewed := records (fun kind urgent detail => viewRecord cycle kind urgent n sl.tag record detail)
    let stripped := records (fun kind urgent detail => slotRecord cycle kind urgent n sl.tag detail)
    (sl.state ≠ .tracking → sl.state ≠ .stale →
      exec (.ratingStep { before := false, during := false }) s = .next (moved s))
    ∧ (sl.state = .tracking ∨ sl.state = .stale → sl.parityGood = true →
      exec (.ratingStep { before := false, during := false }) s = .next (moved
        { putSlot s n { sl with record := record } with appends := s.appends ++ accessAppends .ratingUnit none viewed })
      ∧ (viewed ≠ [] → exec (.ratingStep { before := false, during := true }) s = .next (moved
        { putSlot s n { sl with state := .faulted, parityGood := false, record := record } with
          appends := s.appends ++ accessAppends .ratingUnit none
            (stripped ++ [slotRecord cycle .recordFault true n sl.tag 3]) })))
    ∧ (sl.state = .tracking ∨ sl.state = .stale → (sl.parityGood && !u.before) = false →
      exec (.ratingStep u) s = .next (moved (afterFault s cycle n 3)))

/-- SET-GRADING from the holder installs the settings of the grades it names and changes nothing else of the record; SET-RATING
from the holder installs R and restarts its count. Wrong arguments are refused. -/
def Obligations.GradingAndRatingAreSet : Prop :=
  (∀ (s : State) (p : Port) (n : Nat) (args : List Byte) (named : PerGrade (Option GradeSetting)),
    Holds s p → InHand s p 0x20 args → gradingArgs args = some (n, named) → Readable s n →
    let sl := slotAt s.table n
    let kept := sl.record.settings
    let settings : PerGrade GradeSetting :=
      { loss := named.loss.getD kept.loss, timing := named.timing.getD kept.timing,
        order := named.order.getD kept.order, path := named.path.getD kept.path }
    exec (.setGrading p false) s = .next
      (answered (putSlot s n { sl with record := { sl.record with settings := settings } }) p (.bare .ok)))
  ∧ (∀ (s : State) (p : Port) (args : List Byte), Holds s p → InHand s p 0x20 args → gradingArgs args = none →
    exec (.setGrading p false) s = .next (answered s p (.bare .badValue)))
  ∧ (∀ (s : State) (p : Port) (interval : Nat), Holds s p → 1 ≤ interval → interval ≤ 65535 →
    InHand s p 0x21 (leBytes 2 interval) →
    exec (.setRating p) s = .next
      (answered { s with rating := { s.rating with interval := interval, since := 0 } } p (.bare .ok)))
  ∧ ∀ (s : State) (p : Port) (args : List Byte), Holds s p → InHand s p 0x21 args → (args.length ≠ 2 ∨ halfAt args 0 = 0) →
    exec (.setRating p) s = .next (answered s p (.bare .badValue))

/-- READ-RATING answers OK with R, the cycles since last rating, whether a rating sweep is running and its position, 0 when
none, and RATING_SKIPS: 11 data bytes, from any port, with or without the lock; it changes nothing. Argument bytes are answered
BAD_VALUE. -/
def Obligations.ReadRatingReturnsElevenBytes : Prop :=
  (∀ (s : State) (p : Port) (args : List Byte), InHand s p 0x23 args → args ≠ [] →
    exec (.readRating p) s = .next (answered s p (.bare .badValue)))
  ∧ ∀ (s : State) (p : Port), InHand s p 0x23 [] →
    let position := match s.rating.sweep with
      | none => 0
      | some n => n
    let data := leBytes 2 s.rating.interval ++ leBytes 2 s.rating.since ++ [if s.rating.sweep.isSome then 1 else 0]
      ++ leBytes 2 position ++ leBytes 4 s.rating.skips
    exec (.readRating p) s = .next (answered s p (.okData data)) ∧ data.length = 11

/-! ### The Condition Log (07) -/

/-- The log takes the oldest append of a source, unless it is amid the records of another's access: a full log first loses its
oldest record, taking each cursor that stood on it one further with an overrun and LOG_OVERRUN; the record is stored with the
next serial; an URGENT one sends DEVICE_ALERT to every port, and a CONDITION notice with the serial goes to each port subscribed
to its class. When no record of the Classifier is left, the hand-off that waited for them is made. (The records of one access
stand together: log 10; the order of the notices: log 12; the hand-off: log 21.) -/
def Obligations.LogAppendStoresAndAnnounces : Prop :=
  ∀ (s : State) (src : LogSource) (a : Append) (before after : List Append), Running s →
    (s.log.midAccess = none ∨ s.log.midAccess = some src) →
    s.appends = before ++ a :: after → a.source = src → (∀ x ∈ before, x.source ≠ src) →
    let log := s.log
    let c := a.condition
    let full := 128 ≤ log.records.length
    let onOldest (q : Port) : Prop := full ∧ (log.records.head?).map (·.serial) = some (log.cursors.get q)
    let next (serial : Nat) : Nat := if serial = 4294967295 then 1 else serial + 1
    let cursor (q : Port) : Nat := if onOldest q then next (log.cursors.get q) else log.cursors.get q
    let overrun (q : Port) : Nat := if onOldest q then min 65535 (log.overruns.get q + 1) else log.overruns.get q
    let left := before ++ after
    let release := ∀ x ∈ left, x.source ≠ .classifier
    let subscribers := [Port.ap0, .ap1, .ap2].filter (fun q => (log.subscriptions.get q).getLsbD (kindClass c.kind))
    exec (.logAppend src) s = .next { s with
      appends := left,
      log := { records := (if full then log.records.drop 1 else log.records)
                 ++ [{ serial := log.nextSerial, condition := c }],
               nextSerial := next log.nextSerial,
               cursors := { ap0 := cursor .ap0, ap1 := cursor .ap1, ap2 := cursor .ap2 },
               overruns := { ap0 := overrun .ap0, ap1 := overrun .ap1, ap2 := overrun .ap2 },
               subscriptions := log.subscriptions,
               midAccess := if a.last then none else some src },
      statusEvents := s.statusEvents
        ++ ([Port.ap0, .ap1, .ap2].filter (fun q => decide (onOldest q))).map (fun q => { port := q, latch := .logOverrun })
        ++ (if c.urgent then [Port.ap0, .ap1, .ap2].map (fun q => { port := q, latch := .deviceAlert }) else []),
      posted := s.posted ++ subscribers.map (fun q => sentNotice .conditionLog q .condition log.nextSerial),
      classifier := if release then none else s.classifier,
      watch := match s.classifier with
        | none => s.watch
        | some h => if release then { s.watch with handoffs := s.watch.handoffs ++ [h] } else s.watch }

/-- READ-LOG answers as many of the port's unread records, from its cursor on, as its maximum and 250 data bytes allow, moves
the cursor past them, and says how many are left; EMPTY when none is unread. SEEK-LOG moves the cursor to the oldest or the next
serial; READ-LOG-STATUS answers 17 bytes and changes nothing. The kinds have the codes and classes of their table. -/
def Obligations.LogIsReadFromEachCursor : Prop :=
  let kinds : List Kind :=
    [.streamAcquired, .streamSilent, .streamResumed, .sequenceBreak, .gradeTripped, .gradeCleared, .recordFault, .pathDown, .pathUp,
      .timebaseLocked, .timebaseHoldover, .timebaseLost, .markEarly, .ingestHigh, .ingestLost, .straySeen, .watchFired,
      .talliesCleared, .logErased, .softReset, .streamDefined, .streamRetired]
  kinds.map kindCode = [0x01, 0x02, 0x03, 0x04, 0x05, 0x06, 0x07, 0x10, 0x11, 0x20, 0x21, 0x22, 0x23, 0x30, 0x31, 0x32, 0x40, 0x50,
    0x51, 0x52, 0x53, 0x54]
  ∧ kinds.map kindClass = [0, 0, 0, 0, 0, 0, 0, 1, 1, 2, 2, 2, 2, 3, 3, 3, 4, 5, 5, 5, 5, 5]
  ∧ ∀ (s : State) (p : Port),
    let at_ (serial : Nat) : State := { s with log := { s.log with cursors := s.log.cursors.set p serial } }
    let oldest := match s.log.records with
      | [] => s.log.nextSerial
      | r :: _ => r.serial
    let size (r : LogRecord) : Nat := 32 + 9 * r.condition.leadIn.length
    (∀ older unread, s.log.records = older ++ unread → (∀ r ∈ older, r.serial ≠ s.log.cursors.get p) →
      (unread = [] ∧ s.log.cursors.get p = s.log.nextSerial
        ∨ ∃ r later, unread = r :: later ∧ r.serial = s.log.cursors.get p ∧ s.log.cursors.get p ≠ s.log.nextSerial) →
      (∀ limit, 1 ≤ limit → limit ≤ 4 → InHand s p 0x30 (leBytes 1 limit) →
        (unread = [] → exec (.readLog p) s = .next (answered s p (.bare .empty)))
        ∧ ∀ returned rest newest, unread = returned ++ rest → returned.getLast? = some newest → returned.length ≤ limit →
          (returned.map size).sum ≤ 248 →
          (rest = [] ∨ returned.length = limit ∨ ∃ r later, rest = r :: later ∧ 248 < (returned.map size).sum + size r) →
          exec (.readLog p) s = .next (answered
            (at_ (if newest.serial = 4294967295 then 1 else newest.serial + 1)) p
            (.okData (leBytes 1 returned.length ++ leBytes 1 rest.length ++ returned.flatMap recordLayout))))
      ∧ (InHand s p 0x34 [] →
        exec (.readLogStatus p) s = .next (answered s p (.okData
          (leBytes 4 (if s.log.records = [] then 0 else oldest) ++ leBytes 4 s.log.nextSerial
            ++ leBytes 1 s.log.records.length ++ leBytes 4 (s.log.cursors.get p) ++ leBytes 1 unread.length
            ++ leBytes 2 (s.log.overruns.get p) ++ leBytes 1 (s.log.subscriptions.get p).toNat)))))
    ∧ (InHand s p 0x31 (leBytes 1 0) →
      exec (.seekLog p) s = .next (answered (at_ oldest) p (.okData (leBytes 4 oldest))))
    ∧ (InHand s p 0x31 (leBytes 1 1) →
      exec (.seekLog p) s = .next (answered (at_ s.log.nextSerial) p (.okData (leBytes 4 s.log.nextSerial))))
    ∧ (∀ args, InHand s p 0x30 args → (args.length ≠ 1 ∨ byteAt args 0 = 0 ∨ 4 < byteAt args 0) →
      exec (.readLog p) s = .next (answered s p (.bare .badValue)))
    ∧ ∀ args, InHand s p 0x31 args → (args.length ≠ 1 ∨ 1 < byteAt args 0) →
      exec (.seekLog p) s = .next (answered s p (.bare .badValue))

/-- ERASE-LOG from the holder, between accesses' records (log 10), empties the log, sets every cursor to the next serial and
stores LOG_ERASED with that serial and the count removed, announced as an append is. SET-SUBSCRIPTION replaces the port's
six-bit class set. -/
def Obligations.LogIsErasedAndSubscribed : Prop :=
  (∀ (s : State) (p : Port), Holds s p → s.log.midAccess = none → InHand s p 0x32 [] →
    let log := s.log
    let c := bareRecord s.monitor.cycleCount .logErased false (portNumber p + 256 * log.records.length)
    let subscribers := [Port.ap0, .ap1, .ap2].filter (fun q => (log.subscriptions.get q).getLsbD 5)
    exec (.eraseLog p) s = .next (answered { s with
      log := { log with
        records := [{ serial := log.nextSerial, condition := c }],
        nextSerial := if log.nextSerial = 4294967295 then 1 else log.nextSerial + 1,
        cursors := .all log.nextSerial },
      posted := s.posted ++ subscribers.map (fun q => sentNotice .conditionLog q .condition log.nextSerial) }
      p (.bare .ok)))
  ∧ (∀ (s : State) (p : Port), s.log.midAccess ≠ none → exec (.eraseLog p) s = .next s)
  ∧ (∀ (s : State) (p : Port) (mask : BitVec 6), InHand s p 0x33 (leBytes 1 mask.toNat) →
    exec (.setSubscription p) s = .next (answered
      { s with log := { s.log with subscriptions := s.log.subscriptions.set p mask } } p (.bare .ok)))
  ∧ ∀ (s : State) (p : Port) (args : List Byte), InHand s p 0x33 args → (args.length ≠ 1 ∨ 63 < byteAt args 0) →
    exec (.setSubscription p) s = .next (answered s p (.bare .badValue))

/-- Every step keeps the law of the log: at most 128 records with consecutive serials up to the next one, no serial 0, every
cursor on a record held or at the next serial. -/
def Obligations.EveryStepKeepsTheLogLaw : Prop := KeptByEveryStep LogLaw

/-! ### Watch units and the Capture Buffer (08) -/

/-- ARM-WATCH arms a unit that is FREE or the port's own, afresh, taking the partner over with the pair flag and setting a
former partner free without it; DISARM-WATCH sets a unit of the port free, with its partner; a FILLING capture of a unit so
changed ends early. READ-WATCH answers 24 bytes; READ-CAPTURE answers entries to the owner, RELEASE-CAPTURE empties its buffer.
(That the OK of ARM-WATCH and DISARM-WATCH does not wait for the CAPTURE_DONE latch of a capture they end is the model's choice:
log 29.) -/
def Obligations.WatchAndCaptureCommandsAct : Prop :=
  ∀ (s : State) (p : Port),
    let units := s.watch.units
    let rearranged (t : State) (f : UnitId → WatchUnit) : State := { t with watch := { t.watch with units := unitsBy f } }
    let openTo (u : UnitId) : Prop := (units.get u).state = .free ∨ (units.get u).owner = some p
    (∀ args, InHand s p 0x40 args → armArgs args = none → exec (.armWatch p) s = .next (answered s p (.bare .badValue)))
    ∧ (∀ args a, InHand s p 0x40 args → armArgs args = some a →
      let u := a.unit
      let v := partnerOf u
      let armed (role : Role) : WatchUnit :=
        { state := .armed, owner := some p, role := role, low := a.own.low, high := a.own.high, invert := a.own.invert,
          mask := a.own.mask, preset := a.preset, remaining := a.preset, captureLength := a.captureLength, firing := none }
      let wanted := openTo u ∧ (a.partner ≠ none → openTo v)
      (¬wanted → exec (.armWatch p) s = .next (answered s p (.bare .notOwner)))
      ∧ (wanted → (units.get u).role = .pairOdd → exec (.armWatch p) s = .next (answered s p (.bare .busy)))
      ∧ (wanted → (units.get u).role ≠ .pairOdd → a.partner = none →
        exec (.armWatch p) s = .next (answered (rearranged (captureCutShort s [u]) (fun x =>
          if x = u then armed .single
          else if x = v ∧ (units.get u).role = .pairEven then .free else units.get x)) p (.bare .ok)))
      ∧ ∀ m, wanted → (units.get u).role ≠ .pairOdd → a.partner = some m →
        exec (.armWatch p) s = .next (answered (rearranged (captureCutShort s [u, v]) (fun x =>
          if x = u then armed .pairEven
          else if x = v then { WatchUnit.free with
            state := .armed, owner := some p, role := .pairOdd, low := m.low, high := m.high, invert := m.invert,
            mask := m.mask }
          else units.get x)) p (.bare .ok)))
    ∧ (∀ u, InHand s p 0x41 (leBytes 1 (unitNumber u)) →
      ((units.get u).state = .free → exec (.disarmWatch p) s = .next (answered s p (.bare .empty)))
      ∧ ((units.get u).state ≠ .free → (units.get u).owner ≠ some p →
        exec (.disarmWatch p) s = .next (answered s p (.bare .notOwner)))
      ∧ ((units.get u).state ≠ .free → (units.get u).owner = some p →
        let freed := if (units.get u).role = .single then [u] else [u, partnerOf u]
        exec (.disarmWatch p) s = .next (answered
          (rearranged (captureCutShort s freed) (fun x => if x ∈ freed then .free else units.get x)) p (.bare .ok))))
    ∧ (∀ u, InHand s p 0x42 (leBytes 1 (unitNumber u)) →
      let w := units.get u
      let own (n : Nat) : Nat := if w.role = .pairOdd then 0 else n
      (w.state = .free → exec (.readWatch p) s = .next (answered s p (.okData
        (leBytes 2 0xff00 ++ List.replicate 13 0 ++ leBytes 1 255 ++ List.replicate 8 0))))
      ∧ ∀ q, (w.state = .armed ∨ w.state = .fired) → w.owner = some q →
        exec (.readWatch p) s = .next (answered s p (.okData
          (leBytes 1 (if w.state = .armed then 1 else 2) ++ leBytes 1 (portNumber q)
            ++ leBytes 1 (match w.role with
              | .single => 0
              | .pairEven => 1
              | .pairOdd => 2)
            ++ leBytes 2 w.low.toNat ++ leBytes 2 w.high.toNat ++ [if w.invert then 1 else 0] ++ leBytes 2 w.mask.toNat
            ++ leBytes 2 (own w.preset) ++ leBytes 2 (own w.remaining) ++ leBytes 1 (own w.captureLength)
            ++ (match w.firing, w.role with
              | some f, .single => leBytes 1 (tallyNumber f.category) ++ leBytes 2 f.slot ++ leBytes 2 f.tag.toNat
                  ++ leBytes 4 f.cycle.toNat
              | some f, .pairEven => leBytes 1 (tallyNumber f.category) ++ leBytes 2 f.slot ++ leBytes 2 f.tag.toNat
                  ++ leBytes 4 f.cycle.toNat
              | _, _ => leBytes 1 255 ++ leBytes 8 0)))))
    ∧ (∀ first limit, first ≤ 63 → 1 ≤ limit → limit ≤ 16 → InHand s p 0x43 (leBytes 1 first ++ leBytes 1 limit) →
      (s.watch.capture = none → exec (.readCapture p) s = .next (answered s p (.bare .empty)))
      ∧ ∀ c, s.watch.capture = some c →
        let returned := (c.entries.drop first).take limit
        (c.owner ≠ p → exec (.readCapture p) s = .next (answered s p (.bare .notOwner)))
        ∧ (c.owner = p → exec (.readCapture p) s = .next (answered s p (.okData
          (leBytes 1 (if c.full then 2 else 1) ++ leBytes 1 (unitNumber c.source) ++ leBytes 1 c.length
            ++ leBytes 1 c.entries.length ++ leBytes 1 returned.length ++ returned.flatMap captureLayout)))))
    ∧ (InHand s p 0x44 [] →
      (s.watch.capture = none → exec (.releaseCapture p) s = .next (answered s p (.bare .empty)))
      ∧ ∀ c, s.watch.capture = some c →
        (c.owner ≠ p → exec (.releaseCapture p) s = .next (answered s p (.bare .notOwner)))
        ∧ (c.owner = p → exec (.releaseCapture p) s = .next
          (answered { s with watch := { s.watch with capture := none } } p (.bare .ok))))

/-- A frame's increments count against a unit in tally order, where the unit counts them: fewer than its remaining count reduce
it; otherwise the first category that uses it up is the firing hit. A unit that is not ARMED, a PAIR-ODD unit, and one that
counts none of the frame's hits keep their remaining count and do not fire. -/
def Obligations.HitsAreCountedInTallyOrder : Prop :=
  ∀ (units : PerUnit WatchUnit) (u : UnitId) (h : Handoff) (k : Tally → Nat),
    (∀ c, UnitCounts units u h.tag c → k c = h.incs.get c) → (∀ c, ¬UnitCounts units u h.tag c → k c = 0) →
    let all := [Tally.accepted, .dropped, .late, .reordered, .rescued, .duplicate, .straggler, .missedA, .missedB]
    let remaining := (units.get u).remaining
    (((units.get u).state ≠ .armed ∨ (units.get u).role = .pairOdd ∨ ∀ c, k c = 0) → hitsOf units u h = (remaining, none))
    ∧ ((all.map k).sum < remaining → hitsOf units u h = (remaining - (all.map k).sum, none))
    ∧ ∀ before c after, all = before ++ c :: after → (before.map k).sum < remaining →
        remaining ≤ (before.map k).sum + k c → hitsOf units u h = (0, some c)

/-- The Watch Block takes the oldest hand-off: a FILLING buffer whose range the tag fits records it; each unit counts it; a unit
whose count is used up becomes FIRED, with its partner, and its notice goes to its owner; the first such unit with a capture
length finds the buffer EMPTY and starts the capture with this frame, others are refused; the WATCH_FIRED records follow in unit
order, with the hand-off's snapshot and history. A buffer that reaches its length is FULL, with CAPTURE_DONE to its owner. -/
def Obligations.HandoffCountsFiresAndCaptures : Prop :=
  ∀ (s : State) (h : Handoff) (rest : List Handoff), Running s → WatchLaw s → s.watch.handoffs = h :: rest →
    let units := s.watch.units
    let firing : List (UnitId × Tally) :=
      [UnitId.w0, .w1, .w2, .w3].filterMap (fun u => (hitsOf units u h).2.map (fun c => (u, c)))
    let owner (u : UnitId) : Port := (units.get u).owner.getD .ap0
    let entry : CaptureEntry :=
      { slot := h.slot, tag := h.tag, seq := h.seq, path := h.path, tick := h.tick, cats := categoriesOf h.incs }
    let extended (c : Capture) : Capture :=
      { c with entries := c.entries ++ [entry], full := decide (c.length ≤ c.entries.length + 1) }
    let opened (u : UnitId) : Capture :=
      { full := decide ((units.get u).captureLength ≤ 1), owner := owner u, source := u,
        length := (units.get u).captureLength, low := (units.get u).low, high := (units.get u).high,
        invert := (units.get u).invert, entries := [entry] }
    let starter : Option UnitId :=
      match s.watch.capture with
      | some _ => none
      | none => (firing.find? (fun x => (units.get x.1).captureLength != 0)).map (·.1)
    let outcome (u : UnitId) : Nat :=
      if (units.get u).captureLength = 0 then 0 else if starter = some u then 1 else 2
    let filled (c : Capture) (posted : List Posted) (events : List StatusEvent) (capture : Option Capture) : Prop :=
      (c.full = true ∨ ¬TagFits c.low c.high c.invert h.tag → posted = [] ∧ events = [] ∧ capture = some c)
      ∧ (c.full = false → TagFits c.low c.high c.invert h.tag → c.entries.length + 1 < c.length →
          posted = [] ∧ events = [] ∧ capture = some (extended c))
      ∧ (c.full = false → TagFits c.low c.high c.invert h.tag → c.length ≤ c.entries.length + 1 →
          posted = [captureNotice (extended c) false] ∧ events = [{ port := c.owner, latch := .captureDone }]
            ∧ capture = some (extended c))
    let fired (x : UnitId × Tally) : List Posted :=
      (if starter = some x.1 ∧ (units.get x.1).captureLength = 1 then [captureNotice (opened x.1) false] else [])
      ++ [sentNotice .watchBlock (owner x.1) .watchFired
            (unitNumber x.1 + 16 * tallyNumber x.2 + 256 * outcome x.1 + 65536 * h.slot)]
    let record (x : UnitId × Tally) : Condition :=
      { slotRecord h.cycle .watchFired false h.slot h.tag (unitNumber x.1 + 16 * tallyNumber x.2 + 256 * outcome x.1) with
        snapshot := h.snapshot, leadIn := h.history }
    let after (u : UnitId) : WatchUnit :=
      match hitsOf units u h with
      | (_, some c) => { units.get u with
          state := .fired, remaining := 0,
          firing := some { category := c, slot := h.slot, tag := h.tag, cycle := h.cycle } }
      | (remaining, none) =>
        if (units.get u).role = .pairOdd ∧ (hitsOf units (partnerOf u) h).2.isSome then { units.get u with state := .fired }
        else { units.get u with remaining := remaining }
    ∃ (posted : List Posted) (events : List StatusEvent) (capture : Option Capture),
      (∀ c, s.watch.capture = some c → filled c posted events capture)
      ∧ (s.watch.capture = none → posted = [] ∧ capture = starter.map opened
          ∧ events = match starter with
            | some u => if (units.get u).captureLength = 1 then [{ port := owner u, latch := .captureDone }] else []
            | none => [])
      ∧ exec .watchHandoff s = .next { s with
          watch := { units := unitsBy after, capture := capture, handoffs := rest },
          appends := s.appends ++ accessAppends .watchBlock none (firing.map record),
          posted := s.posted ++ posted ++ firing.flatMap fired,
          statusEvents := s.statusEvents ++ events }

/-- Every step keeps the law of the watch units and the Capture Buffer. -/
def Obligations.EveryStepKeepsTheWatchLaw : Prop := KeptByEveryStep WatchLaw

/-! ### The tally lock and the notice queues (10) -/

/-- CLAIM-LOCK of a FREE lock is granted with the lease setting, of the port's own lock renews its lease, and of another's is
LOCK_HELD for TRY and for WAIT QUEUED once with the place in the wait list. RELEASE-LOCK by the holder passes the lock to the
first waiter, with LOCK_GRANTED, or sets it FREE; by a waiter it leaves the list; by another it is NOT_HOLDER. -/
def Obligations.LockIsClaimedAndReleased : Prop :=
  ∀ (s : State) (p : Port),
    let lock := s.lock
    let lease : Option Nat := if lock.setting = 0 then none else some lock.setting
    (∀ wait, wait ≤ 1 → InHand s p 0x60 (leBytes 1 wait) →
      (lock.holding = none → exec (.claimLock p) s = .next (answered
        { s with lock := { lock with
            holding := some { port := p, lease := lease }, waiters := lock.waiters.filter (fun q => q != p) } } p
        (.okData (leBytes 2 lock.setting))))
      ∧ (Holds s p → exec (.claimLock p) s = .next (answered
        { s with lock := { lock with holding := some { port := p, lease := lease } } } p
        { code := .renewed, data := leBytes 2 lock.setting }))
      ∧ (lock.holding ≠ none → ¬Holds s p → wait = 0 →
        exec (.claimLock p) s = .next (answered s p (.bare .lockHeld)))
      ∧ (lock.holding ≠ none → ¬Holds s p → wait = 1 →
        let waiters := if p ∈ lock.waiters then lock.waiters else lock.waiters ++ [p]
        exec (.claimLock p) s = .next (answered { s with lock := { lock with waiters := waiters } } p
          { code := .queued, data := leBytes 1 (waiters.idxOf p + 1) })))
    ∧ (∀ args, InHand s p 0x60 args → (args.length ≠ 1 ∨ 1 < byteAt args 0) →
      exec (.claimLock p) s = .next (answered s p (.bare .badValue)))
    ∧ (InHand s p 0x61 [] →
      (Holds s p → lock.waiters = [] → exec (.releaseLock p) s = .next (answered
        { s with lock := { lock with holding := none } } p (.bare .ok)))
      ∧ (∀ q later, Holds s p → lock.waiters = q :: later → exec (.releaseLock p) s = .next (answered
        { s with
          lock := { lock with
            holding := some { port := q, lease := lease }, waiters := (q :: later).filter (fun x => x != q) },
          posted := s.posted ++ [sentNotice .lockArbiter q .lockGranted lock.setting] } p (.bare .ok)))
      ∧ (¬Holds s p → p ∈ lock.waiters → exec (.releaseLock p) s = .next (answered
        { s with lock := { lock with waiters := lock.waiters.filter (fun q => q != p) } } p (.bare .ok)))
      ∧ (¬Holds s p → p ∉ lock.waiters → exec (.releaseLock p) s = .next (answered s p (.bare .notHolder))))

/-- SET-LEASE from the holder installs the setting and starts the holder's own lease again; READ-LOCK answers nine bytes. The
Lock Arbiter takes a cycle event: a numeric lease counts down; the event that would bring it to 0 sends LOCK_LOST to the holder
and passes the lock with cause 1. The row LEASE_EXPIRY is that event when it ends the lease, and nothing otherwise (log 15). -/
def Obligations.LeaseIsSetReadAndCountedDown : Prop :=
  (∀ (s : State) (p : Port) (setting : Nat), Holds s p → setting ≤ 65535 → InHand s p 0x62 (leBytes 2 setting) →
    exec (.setLease p) s = .next (answered { s with lock := { s.lock with
      setting := setting,
      holding := some { port := p, lease := if setting = 0 then none else some setting } } } p
      (.okData (leBytes 2 setting))))
  ∧ (∀ (s : State) (p : Port) (args : List Byte), Holds s p → InHand s p 0x62 args → args.length ≠ 2 →
    exec (.setLease p) s = .next (answered s p (.bare .badValue)))
  ∧ (∀ (s : State) (p : Port), InHand s p 0x63 [] →
    let waiter (k : Nat) : List Byte := match s.lock.waiters[k]? with
      | some q => leBytes 1 (portNumber q)
      | none => [255]
    exec (.readLock p) s = .next (answered s p (.okData
      ((match s.lock.holding with
        | none => [0, 255, 0, 0]
        | some h => [1] ++ leBytes 1 (portNumber h.port) ++ leBytes 2 (h.lease.getD 0))
        ++ leBytes 2 s.lock.setting ++ leBytes 1 s.lock.waiters.length ++ waiter 0 ++ waiter 1))))
  ∧ ∀ (s : State) (k : Nat), Running s → s.lock.events = k + 1 →
    let lock : Lock := { s.lock with events := k }
    let next : Option Nat := if lock.setting = 0 then none else some lock.setting
    (s.lock.holding = none →
      exec .lockCycleEvent s = .next { s with lock := lock } ∧ exec .leaseExpiry s = .next s)
    ∧ (∀ p, s.lock.holding = some { port := p, lease := none } →
      exec .lockCycleEvent s = .next { s with lock := lock } ∧ exec .leaseExpiry s = .next s)
    ∧ (∀ p n, s.lock.holding = some { port := p, lease := some n } → 2 ≤ n →
      exec .lockCycleEvent s = .next
          { s with lock := { lock with holding := some { port := p, lease := some (n - 1) } } }
        ∧ exec .leaseExpiry s = .next s)
    ∧ (∀ p, s.lock.holding = some { port := p, lease := some 1 } → s.lock.waiters = [] →
      let t : State := { s with
        lock := { lock with holding := none },
        posted := s.posted ++ [sentNotice .lockArbiter p .lockLost 255] }
      exec .lockCycleEvent s = .next t ∧ exec .leaseExpiry s = .next t)
    ∧ ∀ p q later, s.lock.holding = some { port := p, lease := some 1 } → s.lock.waiters = q :: later →
      let t : State := { s with
        lock := { lock with
          holding := some { port := q, lease := next }, waiters := (q :: later).filter (fun x => x != q) },
        posted := s.posted ++ [sentNotice .lockArbiter p .lockLost (portNumber q),
          sentNotice .lockArbiter q .lockGranted (lock.setting + 65536)] }
      exec .lockCycleEvent s = .next t ∧ exec .leaseExpiry s = .next t

/-- The Notice Unit takes the oldest device notice of a sender: it joins the back of a queue with room, and at a queue of 15 it
is discarded and the port's NOTICE_OVERFLOW latch is set. POST-NOTE places a NOTE of the issuing port in one port's queue, or
refuses it QUEUE_FULL, or in every other port's queue with room, answering how many. PEEK-NOTICE answers the oldest notice of
the port and how many the queue holds, TAKE-NOTICE removes it and answers how many are left, FLUSH-NOTICES removes all and
answers how many; an empty queue is answered EMPTY. (Notices of a sender come in the order sent: log 12; the latch within the
placing: log 13.) -/
def Obligations.NoticesArePlacedPostedAndRead : Prop :=
  (∀ (s : State) (src : NoticeSource) (n : Posted) (before after : List Posted), Running s →
    s.posted = before ++ n :: after → n.sender = src → (∀ x ∈ before, x.sender ≠ src) →
    let left : State := { s with posted := before ++ after }
    ((s.queues.get n.port).length < 15 → exec (.noticePlace src) s = .next (withNotice left n.port n.notice))
    ∧ (15 ≤ (s.queues.get n.port).length →
        exec (.noticePlace src) s = .next (withLatch left n.port .noticeOverflow)))
  ∧ (∀ (s : State) (p q : Port) (word : Word), InHand s p 0x70 (leBytes 1 (portNumber q) ++ leBytes 4 word.toNat) →
    ((s.queues.get q).length < 15 → exec (.postNote p) s = .next
      (answered (withNotice s q { kind := .note, source := some p, word := word }) p (.bare .ok)))
    ∧ (15 ≤ (s.queues.get q).length → exec (.postNote p) s = .next (answered s p (.bare .queueFull))))
  ∧ (∀ (s : State) (p : Port) (word : Word), InHand s p 0x70 (leBytes 1 3 ++ leBytes 4 word.toNat) →
    let receivers := [Port.ap0, .ap1, .ap2].filter (fun q => decide (q ≠ p ∧ (s.queues.get q).length < 15))
    exec (.postNote p) s = .next (answered
      (receivers.foldl (fun t q => withNotice t q { kind := .note, source := some p, word := word }) s) p
      (.okData (leBytes 1 receivers.length))))
  ∧ (∀ (s : State) (p : Port) (args : List Byte), InHand s p 0x70 args → (args.length ≠ 5 ∨ 3 < byteAt args 0) →
    exec (.postNote p) s = .next (answered s p (.bare .badValue)))
  ∧ ∀ (s : State) (p : Port),
    let without (queue : List Notice) : State := { s with queues := s.queues.set p queue }
    (s.queues.get p = [] →
      (InHand s p 0x71 [] → exec (.peekNotice p) s = .next (answered s p (.bare .empty)))
      ∧ (InHand s p 0x72 [] → exec (.takeNotice p) s = .next (answered s p (.bare .empty)))
      ∧ (InHand s p 0x73 [] → exec (.flushNotices p) s = .next (answered s p (.bare .empty))))
    ∧ ∀ n later, s.queues.get p = n :: later →
      let notice := leBytes 1 (noticeKindCode n.kind)
        ++ leBytes 1 (match n.source with
          | some q => portNumber q
          | none => 3)
        ++ leBytes 4 n.word.toNat
      (InHand s p 0x71 [] → exec (.peekNotice p) s = .next
        (answered s p (.okData (notice ++ leBytes 1 (later.length + 1)))))
      ∧ (InHand s p 0x72 [] → exec (.takeNotice p) s = .next
        (answered (without later) p (.okData (notice ++ leBytes 1 later.length))))
      ∧ (InHand s p 0x73 [] → exec (.flushNotices p) s = .next
        (answered (without []) p (.okData (leBytes 1 (later.length + 1)))))

/-- Every step keeps the laws of the tally lock, of the notice queues and of ATTN. -/
def Obligations.EveryStepKeepsTheLockNoticeAndAttentionLaws : Prop :=
  KeptByEveryStep LockLaw ∧ KeptByEveryStep NoticeLaw ∧ KeptByEveryStep AttentionLaw

/-! ### Access ports (09) -/

/-- A port in IDLE gathers the bytes shifted in until its length byte says they are a whole request; it answers BAD_FRAME for a
length outside 4..72 or a sum not 0, UNKNOWN_COMMAND for a code not in the book, and else is EXECUTING with the request in hand;
in INIT it gathers them likewise and answers NOT_READY. While EXECUTING or ANSWERING, in a refused period, and after a request
completed in INIT, it ignores the bytes; while RESET is asserted it ignores bytes and select. It shifts out FEh in a refused
period, and else 00h in EXECUTING, FFh in IDLE, and the response frame where there is one, with FFh after it. (That the bytes
are an operand of the command is the model's choice: log 6; data out is a function of the state: log 23.) -/
def Obligations.RequestsAreReceivedAndChecked : Prop :=
  (∀ (s : State) (p : Port) (bytes : List Byte) (sent : Nat), s.startup = .resetAsserted →
    exec (.requestComplete p bytes) s = .next s ∧ exec (.selectRelease p sent) s = .next s)
  ∧ (∀ (a : Access) (sent : Nat),
    (a.select = .refused → dataOut a sent = 0xfe)
    ∧ (a.select ≠ .refused →
      (a.state = .executing → dataOut a sent = 0x00) ∧ (a.state = .idle → dataOut a sent = 0xff)
      ∧ (a.state = .answering ∨ a.state = .init →
        (∀ b, a.response[sent]? = some b → dataOut a sent = b) ∧ (a.response.length ≤ sent → dataOut a sent = 0xff))))
  ∧ ∀ (s : State) (p : Port) (bytes : List Byte), s.startup ≠ .resetAsserted →
    let a := s.ports.get p
    let got := a.received ++ bytes
    let framed (code : Byte) : List Byte := [code, 0, -code]
    let refused (number command code : Byte) (args : List Byte) : Access := { a with
      state := .answering, select := .open_, received := [], answer := none, response := framed code,
      request := some { code := command, number := number, args := args, taken := false } }
    (a.state = .executing ∨ a.state = .answering ∨ a.select = .refused →
      exec (.requestComplete p bytes) s = .next s)
    ∧ (a.state = .idle → a.select ≠ .refused →
      ((got = [] ∨ (4 ≤ byteAt got 0 ∧ byteAt got 0 ≤ 72 ∧ got.length < byteAt got 0)) →
        exec (.requestComplete p bytes) s = .next (putPort s p { a with select := .open_, received := got }))
      ∧ (got ≠ [] → (byteAt got 0 < 4 ∨ 72 < byteAt got 0) →
        exec (.requestComplete p bytes) s = .next (putPort s p (refused 0 0 0x11 [])))
      ∧ ∀ len code number check args extra, got = (len :: code :: number :: args) ++ check :: extra →
        len.toNat = args.length + 4 → args.length ≤ 68 →
        let sum := sumBytes ((len :: code :: number :: args) ++ [check])
        (sum ≠ 0 → exec (.requestComplete p bytes) s = .next (putPort s p (refused number code 0x11 args)))
        ∧ (sum = 0 → (∀ c, commandCode c ≠ code) →
          exec (.requestComplete p bytes) s = .next (putPort s p (refused number code 0x12 args)))
        ∧ (sum = 0 → (∃ c, commandCode c = code) →
          exec (.requestComplete p bytes) s = .next (putPort s p { a with
            state := .executing, select := .open_, received := [], answer := none,
            request := some { code := code, number := number, args := args, taken := false } })))
    ∧ (a.state = .init → a.response ≠ [] → exec (.requestComplete p bytes) s = .next s)
    ∧ (a.state = .init → a.select ≠ .refused → a.response = [] →
      ((got = [] ∨ (4 ≤ byteAt got 0 ∧ byteAt got 0 ≤ 72 ∧ got.length < byteAt got 0)) →
        exec (.requestComplete p bytes) s = .next (putPort s p { a with select := .open_, received := got }))
      ∧ (got ≠ [] → (byteAt got 0 < 4 ∨ 72 < byteAt got 0 ∨ byteAt got 0 ≤ got.length) →
        exec (.requestComplete p bytes) s = .next
          (putPort s p { a with select := .open_, received := [], response := framed 0x10 })))

/-- A block's answer reaches its port once the appends and the parts of a port reset that it waits for are done: with select
asserted it is placed as the response frame, which sums to 0; with select released it is discarded with delivery CUT. Release of
select ends an answer, WHOLE when all of it was sent, and returns the port to IDLE; in IDLE it drops a partial request. A period
that begins while the port is EXECUTING is refused, and its end changes nothing else. (The model's rows for the select line: log
9; the answers that wait for appends: log 11; that no answer waits for a status latch: log 29.) -/
def Obligations.AnswersAreDeliveredOrCut : Prop :=
  ∀ (s : State) (p : Port),
    let a := s.ports.get p
    let ended (code : Byte) (delivery : Delivery) (r : Request) (select : Select) : Access := { a with
      state := .idle, select := select, request := none, answer := none, response := [],
      exchange := some { number := r.number, code := r.code, response := code, delivery := delivery } }
    (∀ ans r, a.state = .executing → a.answer = some ans → a.request = some r →
      let waits := (∃ x ∈ s.appends, x.holds = some p)
        ∨ ∃ parts, s.portResets.get p = some parts
            ∧ ¬(parts.notices = true ∧ parts.marks = true ∧ parts.log = true ∧ parts.lock = true ∧ parts.watch = true)
      let body := responseCode ans.code :: BitVec.ofNat 8 ans.data.length :: ans.data
      let ready : State := { s with portResets := s.portResets.set p none }
      (waits → exec (.blockAnswer p) s = .next s)
      ∧ (¬waits → a.select = .open_ → exec (.blockAnswer p) s = .next (putPort ready p { a with
          state := .answering, answer := none, response := body ++ [-sumBytes body] }))
      ∧ (¬waits → a.select ≠ .open_ → exec (.blockAnswer p) s = .next
          (putPort ready p (ended (responseCode ans.code) .cut r a.select)))
      ∧ sumBytes (body ++ [-sumBytes body]) = 0)
    ∧ (∀ sent r, s.startup = .running → a.state = .answering → a.select = .open_ → a.request = some r →
      exec (.selectRelease p sent) s = .next (putPort s p
        (ended (a.response.headD 0) (if a.response.length ≤ sent then .whole else .cut) r .released)))
    ∧ (∀ sent, s.startup = .running → a.state = .executing → a.select = .open_ →
      exec (.selectRelease p sent) s = .next (putPort s p { a with select := .released }))
    ∧ (∀ sent, s.startup = .running → a.state = .idle → a.select = .open_ →
      exec (.selectRelease p sent) s = .next (putPort s p { a with select := .released, received := [] }))
    ∧ (∀ sent, s.startup ≠ .resetAsserted → a.state = .init → a.select = .open_ →
      exec (.selectRelease p sent) s = .next (putPort s p { a with
        select := .released, received := [], response := [],
        state := if s.startup = .running then .idle else .init }))
    ∧ (∀ sent, s.startup = .running → a.select = .refused →
      exec (.selectRelease p sent) s = .next (putPort s p { a with select := .released }))
    ∧ (a.state = .executing → a.select = .released →
      exec (.selectRefused p) s = .next (putPort s p { a with select := .refused }))

/-- IDENTIFY answers the part's 13 bytes; READ-STATUS the status byte, the enables, ATTN and the last exchange; CLEAR-STATUS
clears the latches it names; SET-ATTENTION replaces the enables and evaluates ATTN; REARM-ATTENTION sets ATTN QUIET and
evaluates it. A status source set event sets its latch, and evaluates ATTN when the latch was clear. -/
def Obligations.StatusAndAttentionAct : Prop :=
  ∀ (s : State) (p : Port),
    let a := s.ports.get p
    let q := s.queues.get p
    let pending := if q = [] then 0 else 1
    let bits (l : Latches) : Nat := (if l.noticeOverflow then 2 else 0) + (if l.logOverrun then 4 else 0)
      + (if l.captureDone then 8 else 0) + (if l.deviceAlert then 16 else 0)
    let put (b : Access) (data : List Byte) : State := answered (putPort s p b) p (.okData data)
    (InHand s p 0x01 [] → exec (.identify p) s = .next (answered s p (.okData
      [0x20, 0x64, 1, BitVec.ofNat 8 (portNumber p), 0, 2, 128, 15, 4, 64, 16, 0, 1])))
    ∧ (InHand s p 0x02 [] → exec (.readStatus p) s = .next (answered s p (.okData
      (leBytes 1 (pending + bits a.latches) ++ leBytes 1 a.enables.toNat ++ [if a.attn then 1 else 0]
        ++ match a.exchange with
          | none => [0, 0, 0, 0]
          | some e => [e.number, e.code, e.response, match e.delivery with
              | .whole => 1
              | .cut => 2]))))
    ∧ (∀ mask : BitVec 5, InHand s p 0x03 (leBytes 1 mask.toNat) →
      let l : Latches :=
        { noticeOverflow := a.latches.noticeOverflow && !mask.getLsbD 1, logOverrun := a.latches.logOverrun && !mask.getLsbD 2,
          captureDone := a.latches.captureDone && !mask.getLsbD 3, deviceAlert := a.latches.deviceAlert && !mask.getLsbD 4 }
      exec (.clearStatus p) s = .next (put { a with latches := l } (leBytes 1 (pending + bits l))))
    ∧ (∀ mask : BitVec 5, InHand s p 0x04 (leBytes 1 mask.toNat) →
      let b := attended { a with enables := mask } q
      exec (.setAttention p) s = .next (put b [if b.attn then 1 else 0]))
    ∧ (∀ args, args.length ≠ 1 ∨ 31 < byteAt args 0 →
      (InHand s p 0x03 args → exec (.clearStatus p) s = .next (answered s p (.bare .badValue)))
      ∧ (InHand s p 0x04 args → exec (.setAttention p) s = .next (answered s p (.bare .badValue))))
    ∧ (InHand s p 0x05 [] →
      (a.attn = true → exec (.rearmAttention p) s = .next
        (put { a with attn := enabledSource a q } [if enabledSource a q then 1 else 0]))
      ∧ (a.attn = false → exec (.rearmAttention p) s = .next (answered s p (.okData [0]))))
    ∧ ∀ l before after, Running s → s.statusEvents = before ++ { port := p, latch := l } :: after →
      (∀ e ∈ before, e ≠ { port := p, latch := l }) →
      exec (.statusSourceSet p l) s = .next (withLatch { s with statusEvents := before ++ after } p l)

/-- PORT-RESET clears the port's latches and enables, sets ATTN QUIET and begins the blocks' parts, each taken once (that its
answer waits for them all is stated in AnswersAreDeliveredOrCut): the port's notices are flushed, its marks read 0 on every slot
outside FREE, its cursor goes to the oldest record with overruns and subscriptions cleared, its lock passes on with cause 2 or
its place in the wait list goes, its watch units and its capture go. (That a part already taken, or with no port reset under
way, leaves the state as it is, is the model's choice: log 2.) -/
def Obligations.PortResetClearsThePortsShare : Prop :=
  (∀ (s : State) (p : Port), InHand s p 0x06 [] →
    let begun : PortResetParts := { notices := false, marks := false, log := false, lock := false, watch := false }
    exec (.portReset p) s = .next (answered (putPort { s with portResets := s.portResets.set p (some begun) } p
      { s.ports.get p with
        latches := { noticeOverflow := false, logOverrun := false, captureDone := false, deviceAlert := false },
        enables := 0, attn := false }) p (.bare .ok)))
  ∧ (∀ (s : State) (p : Port), s.portResets.get p = none →
    exec (.portResetNotices p) s = .next s ∧ exec (.portResetMarks p) s = .next s ∧ exec (.portResetLog p) s = .next s
      ∧ exec (.portResetLock p) s = .next s ∧ exec (.portResetWatch p) s = .next s)
  ∧ ∀ (s : State) (p : Port) (parts : PortResetParts), s.portResets.get p = some parts →
    let with_ (q : PortResetParts) (t : State) : State := { t with portResets := s.portResets.set p (some q) }
    (parts.notices = false → exec (.portResetNotices p) s = .next
      (with_ { parts with notices := true } { s with queues := s.queues.set p [] }))
    ∧ (parts.marks = false → ∃ t, exec (.portResetMarks p) s = .next t
      ∧ t = with_ { parts with marks := true } { s with table := { s.table with slots := t.table.slots } }
      ∧ ∀ n, slotAt t.table n = if (slotAt s.table n).state = .free then slotAt s.table n
          else { slotAt s.table n with record := { (slotAt s.table n).record with
            marks := (slotAt s.table n).record.marks.set p (.all 0) } })
    ∧ (parts.log = false → exec (.portResetLog p) s = .next (with_ { parts with log := true } { s with
        log := { s.log with
          cursors := s.log.cursors.set p (match s.log.records with
            | [] => s.log.nextSerial
            | r :: _ => r.serial),
          overruns := s.log.overruns.set p 0, subscriptions := s.log.subscriptions.set p 0 } }))
    ∧ (parts.lock = false →
      (¬Holds s p → exec (.portResetLock p) s = .next (with_ { parts with lock := true } { s with
        lock := { s.lock with waiters := s.lock.waiters.filter (fun q => q != p) } }))
      ∧ (Holds s p → s.lock.waiters = [] → exec (.portResetLock p) s = .next (with_ { parts with lock := true } { s with
        lock := { s.lock with holding := none } }))
      ∧ ∀ q later, Holds s p → s.lock.waiters = q :: later →
        exec (.portResetLock p) s = .next (with_ { parts with lock := true } { s with
          lock := { s.lock with
            holding := some { port := q, lease := if s.lock.setting = 0 then none else some s.lock.setting },
            waiters := (q :: later).filter (fun x => x != q) },
          posted := s.posted ++ [sentNotice .lockArbiter q .lockGranted (s.lock.setting + 131072)] }))
    ∧ (parts.watch = false → exec (.portResetWatch p) s = .next (with_ { parts with watch := true } { s with
        watch := { s.watch with
          units := unitsBy (fun u => if (s.watch.units.get u).owner = some p then .free else s.watch.units.get u),
          capture := s.watch.capture.filter (fun c => c.owner != p) } }))
    ∧ (parts.notices = true → exec (.portResetNotices p) s = .next s)
    ∧ (parts.marks = true → exec (.portResetMarks p) s = .next s)
    ∧ (parts.log = true → exec (.portResetLog p) s = .next s)
    ∧ (parts.lock = true → exec (.portResetLock p) s = .next s)
    ∧ (parts.watch = true → exec (.portResetWatch p) s = .next s)

/-- SOFT-RESET from the holder begins a soft reset. First stage: every notice queue, the lock, the Intake less its paths, the
sweep, the rating less R, the watch units and the capture, and, after the queues, each port's latches and ATTN with its enables
kept. Second, after all of these: the log empties and stores SOFT_RESET. Third, after the log and when the Classifier holds no
frame: the Stream Table's visit makes every DEFINED, TRACKING or STALE record as defined with gap stamp 0, or FAULTED with
RECORD_FAULT, detail 7, where its parity fails, empties the stray list, and the answer OK is formed. From the Intake's part to
the visit no frame is taken. (`late` and the log between accesses: logs 10, 19; overlapping soft resets: log 20; a part before
its turn or already taken leaves the state as it is: log 2; the order of the visit's records: log 27; the cycle counts of
SOFT_RESET and of those: log 28.) -/
def Obligations.SoftResetRunsInThreeStages : Prop :=
  (∀ (s : State) (p : Port), Holds s p → InHand s p 0x07 [] →
    let begun : SoftResetParts :=
      { notices := false, lock := false, intake := false, sweep := false, rating := false, watch := false,
        ports := .all false, log := false }
    exec (.softReset p) s = .next { taken s p with softResets := s.softResets.set p (some begun) })
  ∧ ∀ (s : State) (p : Port) (parts : SoftResetParts), s.softResets.get p = some parts →
    let with_ (q : SoftResetParts) (t : State) : State := { t with softResets := s.softResets.set p (some q) }
    (parts.notices = false → exec (.softResetNotices p) s = .next
      (with_ { parts with notices := true } { s with queues := .all [] }))
    ∧ (parts.lock = false → exec (.softResetLock p) s = .next
      (with_ { parts with lock := true } { s with lock := { s.lock with holding := none, waiters := [] } }))
    ∧ (∀ late, parts.intake = false → exec (.softResetIntake p late) s = .next
      (with_ { parts with intake := true } { s with intake := { s.intake with
        queue := [], highMark := .armed, episode := none, frameCount := none,
        counters :=
          { received := 0, admitted := 0, lost := 0, badFrames := 0, malformedArrival := 0,
            malformedClass := if late = true ∧ s.intake.frameCount = some .malformedClass then 1 else 0,
            faultedDiscards := if late = true ∧ s.intake.frameCount = some .faultedDiscard then 1 else 0,
            strayEvictions := 0, gapCount := 0 } } }))
    ∧ (parts.sweep = false → exec (.softResetSweep p) s = .next (with_ { parts with sweep := true } { s with sweep := none }))
    ∧ (parts.rating = false → exec (.softResetRating p) s = .next (with_ { parts with rating := true }
        { s with rating := { s.rating with since := 0, sweep := none, skips := 0 } }))
    ∧ (parts.watch = false → exec (.softResetWatch p) s = .next (with_ { parts with watch := true }
        { s with watch := { s.watch with units := unitsBy (fun _ => .free), capture := none } }))
    ∧ (parts.notices = true → exec (.softResetNotices p) s = .next s)
    ∧ (parts.lock = true → exec (.softResetLock p) s = .next s)
    ∧ (∀ late, parts.intake = true → exec (.softResetIntake p late) s = .next s)
    ∧ (parts.sweep = true → exec (.softResetSweep p) s = .next s)
    ∧ (parts.rating = true → exec (.softResetRating p) s = .next s)
    ∧ (parts.watch = true → exec (.softResetWatch p) s = .next s)
    ∧ (∀ q, parts.notices = false ∨ parts.ports.get q = true → exec (.softResetPort p q) s = .next s)
    ∧ (¬FirstStageDone parts ∨ parts.log = true ∨ s.log.midAccess ≠ none → exec (.softResetLog p) s = .next s)
    ∧ (∀ upsets, parts.log = false ∨ s.classifier ≠ none → exec (.softResetVisit p upsets) s = .next s)
    ∧ (∀ u, parts.intake = true → exec (.frameTake u) s = .next s)
    ∧ (∀ q, parts.notices = true → parts.ports.get q = false →
      exec (.softResetPort p q) s = .next (with_ { parts with ports := parts.ports.set q true } (putPort s q (attended
        { s.ports.get q with
          latches := { noticeOverflow := false, logOverrun := false, captureDone := false, deviceAlert := false },
          attn := false } (s.queues.get q)))))
    ∧ (FirstStageDone parts → parts.log = false → s.log.midAccess = none →
      let c := bareRecord s.monitor.cycleCount .softReset false (portNumber p + 256 * s.log.records.length)
      let subscribers := [Port.ap0, .ap1, .ap2].filter (fun q => (s.log.subscriptions.get q).getLsbD 5)
      exec (.softResetLog p) s = .next (with_ { parts with log := true } { s with
        log := { s.log with
          records := [{ serial := s.log.nextSerial, condition := c }],
          nextSerial := if s.log.nextSerial = 4294967295 then 1 else s.log.nextSerial + 1,
          cursors := .all s.log.nextSerial, overruns := .all 0 },
        posted := s.posted ++ subscribers.map (fun q => sentNotice .conditionLog q .condition s.log.nextSerial) }))
    ∧ (∀ upsets, parts.log = true → s.classifier = none → ∃ t, exec (.softResetVisit p upsets) s = .next (withAnswer t p (.bare .ok))
      ∧ t = { s with softResets := s.softResets.set p none, appends := t.appends,
                     table := { s.table with slots := t.table.slots, strays := [] } }
      ∧ (∀ n, n < 512 →
        let sl := slotAt s.table n
        let good := sl.parityGood && !upsets.contains n
        (stateLive sl.state = false → slotAt t.table n = { sl with parityGood := good })
        ∧ (stateLive sl.state = true → good = false →
            slotAt t.table n = { sl with state := .faulted, parityGood := false })
        ∧ (stateLive sl.state = true → good = true →
            slotAt t.table n = { sl with
              state := .defined,
              record :=
                { definition := sl.record.definition, settings := sl.record.settings, base := 0, high := 0, acceptedSet := 0,
                  trackerA := { mark := none, stamp := 0 }, trackerB := { mark := none, stamp := 0 }, refSeq := 0,
                  refTick := 0, lastCycle := 0, history := [], tallies := .all 0, marks := .all (.all 0), gapStamp := 0,
                  intervals := .all 0, grades := .all { current := 200, worst := 200, tripped := false },
                  intervalsRated := 0 } }))
      ∧ t.appends = s.appends ++ (List.range 512).flatMap (fun n =>
          if stateLive (slotAt s.table n).state && !((slotAt s.table n).parityGood && !upsets.contains n) then
            [appendOf .streamTable (slotRecord s.monitor.cycleCount .recordFault true n (slotAt s.table n).tag 7)]
          else []))

/-! ### Checks and laws of the whole -/

/-- A command that takes no arguments answers BAD_VALUE to argument bytes, and a command with arguments of its own does so to a
wrong count or a value out of range (here the slot readings, the sweeps and the watch readings); one that needs the tally lock
answers LOCK_REQUIRED to a port that does not hold it, whatever its arguments; nothing else changes. (ERASE-LOG is taken between
accesses' records: log 10.) -/
def Obligations.WrongArgumentsAndMissingLockAreRefused : Prop :=
  ∀ (s : State) (p : Port) (args : List Byte),
    let refuses (code : Byte) (c : Instr) (r : Response) : Prop :=
      InHand s p code args → exec c s = .next (answered s p (.bare r))
    (args ≠ [] →
      refuses 0x01 (.identify p) .badValue ∧ refuses 0x02 (.readStatus p) .badValue
      ∧ refuses 0x05 (.rearmAttention p) .badValue ∧ refuses 0x06 (.portReset p) .badValue
      ∧ refuses 0x0a (.readIntake p) .badValue ∧ (∀ dt, refuses 0x0b (.readTimebase p dt) .badValue)
      ∧ refuses 0x1c (.abortSweep p) .badValue ∧ refuses 0x1d (.readSweep p) .badValue
      ∧ refuses 0x34 (.readLogStatus p) .badValue ∧ refuses 0x44 (.releaseCapture p) .badValue
      ∧ refuses 0x61 (.releaseLock p) .badValue ∧ refuses 0x63 (.readLock p) .badValue
      ∧ refuses 0x71 (.peekNotice p) .badValue ∧ refuses 0x72 (.takeNotice p) .badValue
      ∧ refuses 0x73 (.flushNotices p) .badValue
      ∧ (Holds s p → refuses 0x07 (.softReset p) .badValue ∧ refuses 0x16 (.clearStrays p) .badValue
          ∧ (s.log.midAccess = none → refuses 0x32 (.eraseLog p) .badValue)))
    ∧ (¬Holds s p →
      refuses 0x07 (.softReset p) .lockRequired ∧ refuses 0x0c (.setTimebase p) .lockRequired
      ∧ refuses 0x10 (.defineStream p) .lockRequired ∧ (∀ u, refuses 0x11 (.redefineStream p u) .lockRequired)
      ∧ refuses 0x12 (.retireStream p) .lockRequired ∧ refuses 0x16 (.clearStrays p) .lockRequired
      ∧ refuses 0x1a (.clearTallies p) .lockRequired ∧ (∀ u, refuses 0x20 (.setGrading p u) .lockRequired)
      ∧ refuses 0x21 (.setRating p) .lockRequired ∧ refuses 0x62 (.setLease p) .lockRequired
      ∧ (s.log.midAccess = none → refuses 0x32 (.eraseLog p) .lockRequired))
    ∧ ((args.length ≠ 2 ∨ 511 < halfAt args 0) → ∀ u,
      refuses 0x13 (.readDefinition p u) .badValue ∧ refuses 0x17 (.readWindow p u) .badValue
      ∧ refuses 0x22 (.readGrades p u) .badValue)
    ∧ ((args.length ≠ 3 ∨ 511 < halfAt args 0 ∨ 1 < byteAt args 2) → ∀ u, refuses 0x19 (.readSheet p u) .badValue)
    ∧ ((args.length ≠ 4 ∨ halfAt args 2 < halfAt args 0 ∨ 511 < halfAt args 2) →
      refuses 0x1b (.startScrub p) .badValue ∧ (Holds s p → refuses 0x1a (.clearTallies p) .badValue))
    ∧ ((args.length ≠ 1 ∨ 3 < byteAt args 0) →
      refuses 0x41 (.disarmWatch p) .badValue ∧ refuses 0x42 (.readWatch p) .badValue)
    ∧ ((args.length ≠ 2 ∨ 63 < byteAt args 0 ∨ byteAt args 1 = 0 ∨ 16 < byteAt args 1) →
      refuses 0x43 (.readCapture p) .badValue)

/-- The state after reset obeys every law. -/
def Obligations.ResetObeysEveryLaw : Prop := Lawful State.reset
end

