-- ==== Sys2Proof/Laws/Formats.lean ====
section
/-! SUPPORT. What the byte operations do: fields of joined bytes, numbers as bytes and back, check bytes. -/

namespace Sys2Proof.Machine

/-! ### Numbers as bytes (R185) -/

@[simp] theorem leBytes_length (n v : Nat) : (leBytes n v).length = n := by
  induction n generalizing v with
  | zero => rfl
  | succ n ih => simp [leBytes, ih]

/-- Reading back the `n` low bytes of a number gives the number mod 256 to the `n`. -/
theorem leNat_leBytes (n v : Nat) : leNat (leBytes n v) = v % 256 ^ n := by
  induction n generalizing v with
  | zero => simp [leBytes, leNat, Nat.mod_one]
  | succ n ih =>
    simp only [leBytes, leNat, ih, BitVec.toNat_ofNat]
    rw [show 256 ^ (n + 1) = 256 * 256 ^ n from Nat.pow_succ', Nat.mod_mul]

theorem leNat_lt (bs : List Byte) : leNat bs < 256 ^ bs.length := by
  induction bs with
  | nil => simp [leNat]
  | cons b bs ih =>
    have hb := b.isLt
    simp only [leNat, List.length_cons, Nat.pow_succ']
    omega

/-- A field of `n` bytes is below 256 to the `n`. -/
theorem fieldAt_lt (bytes : List Byte) (k n : Nat) : fieldAt bytes k n < 256 ^ n := by
  have h := leNat_lt ((bytes.drop k).take n)
  have h2 : ((bytes.drop k).take n).length ≤ n := by rw [List.length_take]; exact Nat.min_le_left _ _
  exact Nat.lt_of_lt_of_le h (Nat.pow_le_pow_right (by decide) h2)

/-- A field that lies within the first of two joined byte lists. -/
theorem fieldAt_append_left (a b : List Byte) (k n : Nat) (h : k + n ≤ a.length) : fieldAt (a ++ b) k n = fieldAt a k n := by
  unfold fieldAt
  rw [List.drop_append_of_le_length (by omega), List.take_append_of_le_length (by simp; omega)]

/-- A field that lies within the second of two joined byte lists. -/
theorem fieldAt_append_right (a b : List Byte) (k n : Nat) (h : a.length ≤ k) :
    fieldAt (a ++ b) k n = fieldAt b (k - a.length) n := by
  unfold fieldAt
  rw [List.drop_append, List.drop_eq_nil_of_le h, List.nil_append]

/-- The field that begins with a number's bytes. -/
theorem fieldAt_leBytes (n v : Nat) (h : v < 256 ^ n) : fieldAt (leBytes n v) 0 n = v := by
  unfold fieldAt
  rw [List.drop_zero, List.take_of_length_le (by simp), leNat_leBytes, Nat.mod_eq_of_lt h]

theorem fieldAt_leBytes_append (n v : Nat) (rest : List Byte) (h : v < 256 ^ n) :
    fieldAt (leBytes n v ++ rest) 0 n = v := by
  rw [fieldAt_append_left _ _ _ _ (by simp), fieldAt_leBytes n v h]

/-- A one-byte field. -/
theorem fieldAt_one (bytes : List Byte) (k : Nat) : fieldAt bytes k 1 = (bytes.getD k 0).toNat := by
  unfold fieldAt
  cases h : bytes.drop k with
  | nil =>
    have hk := List.drop_eq_nil_iff.mp h
    simp [leNat, hk]
  | cons b rest =>
    have hk : bytes[k]? = some b := by
      have h0 : (bytes.drop k)[0]? = some b := by rw [h]; rfl
      simpa using h0
    simp [leNat, hk]

/-- A field of `n + 1` bytes is its first byte plus 256 times the field of the others. -/
theorem fieldAt_succ (bytes : List Byte) (k n : Nat) :
    fieldAt bytes k (n + 1) = (bytes.getD k 0).toNat + 256 * fieldAt bytes (k + 1) n := by
  unfold fieldAt
  cases h : bytes.drop k with
  | nil =>
    have hk := List.drop_eq_nil_iff.mp h
    have hk1 : bytes.drop (k + 1) = [] := List.drop_eq_nil_iff.mpr (by omega)
    rw [hk1]
    simp [leNat, hk]
  | cons b rest =>
    have hk : bytes[k]? = some b := by
      have h0 : (bytes.drop k)[0]? = some b := by rw [h]; rfl
      simpa using h0
    have hr : bytes.drop (k + 1) = rest := by
      have h1 : (bytes.drop k).drop 1 = rest := by rw [h]; rfl
      rwa [List.drop_drop] at h1
    rw [hr]
    simp [leNat, hk]

/-- Two numbers joined are read as the two fields. -/
theorem fieldAt_two (m n u v : Nat) (hu : u < 256 ^ m) (hv : v < 256 ^ n) :
    fieldAt (leBytes m u ++ leBytes n v) 0 m = u ∧ fieldAt (leBytes m u ++ leBytes n v) m n = v := by
  constructor
  · exact fieldAt_leBytes_append m u _ hu
  · rw [fieldAt_append_right _ _ _ _ (by simp)]
    simpa using fieldAt_leBytes n v hv

/-- The argument that names a slot (R32). -/
theorem oneSlotArg_leBytes (n : Nat) (h : n ≤ 511) : oneSlotArg (leBytes 2 n) = some n := by
  have : fieldAt (leBytes 2 n) 0 2 = n := fieldAt_leBytes 2 n (by omega)
  simp [oneSlotArg, this, slotArg, h]

/-! ### Check bytes (R185) -/

@[simp] theorem sumBytes_append (a b : List Byte) : sumBytes (a ++ b) = sumBytes a + sumBytes b := by
  induction a with
  | nil => simp [sumBytes]
  | cons x xs ih => simp [sumBytes, ih, BitVec.add_assoc]

/-- Bytes closed by their check byte sum to 0 mod 256. -/
@[simp] theorem sumBytes_closed (body : List Byte) : sumBytes (body ++ [checkByte body]) = 0 := by
  simp only [sumBytes_append, checkByte, sumBytes]
  rw [show (0 : Byte) = 0#8 from rfl, BitVec.add_zero, ← BitVec.sub_eq_add_neg, BitVec.sub_self]

/-- A response frame sums to 0 mod 256 (R161). -/
theorem responseFrame_sum (a : Answer) : sumBytes (responseFrame a) = 0 := by
  unfold responseFrame
  exact sumBytes_closed _

/-- A tally sheet sums to 0 mod 256 (R89). -/
theorem sheetBytes_sum (n : Nat) (sl : Slot) (p : Port) (m : Bool) (g : Nat) (c : Word) : sumBytes (sheetBytes n sl p m g c) = 0 := by
  unfold sheetBytes
  exact sumBytes_closed _

end Sys2Proof.Machine
end

