-- ==== Sys2Proof/Laws/Descriptors.lean ====
section
/-! SUPPORT. Link descriptors: their fields byte by byte, and what the checks of R3 answer. -/

namespace Sys2Proof.Safety

open Sys2Proof.Machine

theorem fieldAt_byte (bytes : List Byte) (k : Nat) : fieldAt bytes k 1 = byteAt bytes k := fieldAt_one bytes k

theorem fieldAt_half (bytes : List Byte) (k : Nat) : fieldAt bytes k 2 = halfAt bytes k := by
  rw [fieldAt_succ, fieldAt_one]
  rfl

theorem fieldAt_word (bytes : List Byte) (k : Nat) : fieldAt bytes k 4 = wordAt bytes k := by
  have h4 := fieldAt_succ bytes k 3
  have h3 := fieldAt_succ bytes (k + 1) 2
  have h2 := fieldAt_succ bytes (k + 1 + 1) 1
  have h1 := fieldAt_one bytes (k + 1 + 1 + 1)
  rw [h4, h3, h2, h1]
  simp only [wordAt, halfAt, byteAt, Nat.add_assoc, Nat.reduceAdd]
  omega

theorem byteAt_lt (bytes : List Byte) (k : Nat) : byteAt bytes k < 256 := (bytes.getD k 0).isLt

/-- Bit 0 of a byte says whether its number is odd. -/
theorem lowBit_eq (n : Nat) : (BitVec.ofNat 8 n).getLsbD 0 = decide (n % 2 = 1) := by
  simp only [BitVec.getLsbD_ofNat, Nat.testBit_zero]
  simp

/-- A kind code other than 1 and 2 is malformed (R3, test 1). -/
theorem checkDescriptor_badKind (bytes : List Byte) (h1 : byteAt bytes 0 ≠ 1) (h2 : byteAt bytes 0 ≠ 2) :
    checkDescriptor bytes = .malformed := by
  unfold checkDescriptor
  rw [fieldAt_byte]
  split <;> first | omega | rfl

/-- A FRAME with FCS-bad set is a bad frame (R3, test 2). -/
theorem checkDescriptor_badFrame (bytes : List Byte) (h1 : byteAt bytes 0 = 1) (h2 : byteAt bytes 1 % 2 = 1) :
    checkDescriptor bytes = .badFrame := by
  unfold checkDescriptor checkFrame
  rw [fieldAt_byte, h1]
  simp only [fieldAt_byte, lowBit_eq, h2, decide_true, if_true]

/-- A FRAME that fails a test of its tag, path, ingress port or length is malformed (R3, tests 3 to 5). -/
theorem checkDescriptor_badFields (bytes : List Byte) (h1 : byteAt bytes 0 = 1) (h2 : byteAt bytes 1 % 2 = 0)
    (h3 : halfAt bytes 4 = 0 ∨ halfAt bytes 4 = 65535 ∨ 2 < byteAt bytes 3 ∨ 31 < byteAt bytes 2 ∨ halfAt bytes 12 = 0) :
    checkDescriptor bytes = .malformed := by
  unfold checkDescriptor checkFrame
  rw [fieldAt_byte, h1]
  have h0 : ¬byteAt bytes 1 % 2 = 1 := by omega
  simp only [fieldAt_byte, lowBit_eq, fieldAt_half, h0, decide_false, Bool.false_eq_true, if_false]
  by_cases h4 : halfAt bytes 4 = 0 ∨ halfAt bytes 4 = 65535
  · simp [h4]
  · simp only [h4, if_false]
    by_cases h5 : 2 < byteAt bytes 3
    · have : pathOfNumber (byteAt bytes 3) = none := by
        unfold pathOfNumber
        split <;> first | omega | rfl
      simp [this]
    · split
      · rfl
      · have : ¬(byteAt bytes 2 ≤ 31 ∧ halfAt bytes 12 ≠ 0) := by
          have := not_or.mp h4
          omega
        simp only [this, if_false]

/-- A LINK with a port other than 1 and 2, or a state above 1, is malformed (R3, test 6). -/
theorem checkDescriptor_badLink (bytes : List Byte) (h1 : byteAt bytes 0 = 2)
    (h2 : byteAt bytes 1 = 0 ∨ 2 < byteAt bytes 1 ∨ 1 < byteAt bytes 2) : checkDescriptor bytes = .malformed := by
  unfold checkDescriptor checkLink
  rw [fieldAt_byte, h1]
  simp only [fieldAt_byte]
  have key : ringPortOfNumber (byteAt bytes 1) = none ∨ 1 < byteAt bytes 2 := by
    unfold ringPortOfNumber
    rcases h2 with h | h | h
    · left; rw [h]; rfl
    · left; split <;> first | omega | rfl
    · exact .inr h
  rcases key with h | h
  · rw [h]
  · split
    · omega
    · omega
    · rfl

/-- Bytes that carry a good descriptor pass every test with it. -/
theorem checkDescriptor_good (bytes : List Byte) (d : Descriptor) (h : Carries bytes d) :
    bytes.length = 16 ∧ checkDescriptor bytes = .good d := by
  cases d with
  | frame f =>
    obtain ⟨hl, h0, h1, h2, h3, h4, h5, h6, h7, h8, h9, h10, h11⟩ := h
    refine ⟨hl, ?_⟩
    unfold checkDescriptor checkFrame
    rw [fieldAt_byte, h0]
    have h0 : ¬byteAt bytes 1 % 2 = 1 := by omega
    simp only [fieldAt_byte, lowBit_eq, fieldAt_half, h0, decide_false, Bool.false_eq_true, if_false, h2, h3, or_self]
    have e : ∀ path, f.path = path → frameFields bytes path = f := by
      intro path hp
      simp only [frameFields, fieldAt_half, fieldAt_word, fieldAt_byte]
      cases f
      simp only at *
      subst hp
      simp only [h6, h10, ← h7, ← h8, ← h9, BitVec.ofNat_toNat, BitVec.setWidth_eq]
    rcases h11 with ⟨a, b⟩ | ⟨a, b⟩ | ⟨a, b⟩ <;> simp [a, pathOfNumber, h4, h5, e _ b]
  | link port up =>
    obtain ⟨hl, h0, h1, h2⟩ := h
    refine ⟨hl, ?_⟩
    unfold checkDescriptor checkLink
    rw [fieldAt_byte, h0]
    simp only [fieldAt_byte]
    rcases h1 with ⟨a, rfl⟩ | ⟨a, rfl⟩ <;> rcases h2 with ⟨b, rfl⟩ | ⟨b, rfl⟩ <;> simp [a, b, ringPortOfNumber]

/-- The two ways of saying that the front descriptor has left the queue. -/
theorem removeFront_eq (i : Intake) (rest : List Descriptor) : removeFront i rest = withoutFront i rest := rfl

/-- A report of the state that a path has leaves the path as it is (R10, R11). -/
theorem pathAfterLink_same (path : RingPath) : pathAfterLink path path.up = path := by
  rcases path with ⟨_ | _, e⟩ <;> rfl

end Sys2Proof.Safety
end

