-- ==== Sys2Proof/Laws/State.lean ====
section
/-! SUPPORT. The small laws of State and of its named updates: what each update does to each field, so that no proof unfolds a
record update. -/

namespace Sys2Proof.Machine

/-! ### Values for each port, unit, grade and category -/

@[simp] theorem PerPort.get_all {α : Type} (x : α) (p : Port) : (PerPort.all x).get p = x := by cases p <;> rfl

@[simp] theorem PerPort.get_set_same {α : Type} (v : PerPort α) (p : Port) (x : α) : (v.set p x).get p = x := by
  cases p <;> rfl

theorem PerPort.get_set_other {α : Type} (v : PerPort α) (p q : Port) (x : α) (h : q ≠ p) : (v.set p x).get q = v.get q := by
  cases p <;> cases q <;> first | rfl | exact absurd rfl h

theorem PerPort.get_set {α : Type} (v : PerPort α) (p q : Port) (x : α) :
    (v.set p x).get q = if q = p then x else v.get q := by
  by_cases h : q = p
  · subst h; simp
  · simp [h, PerPort.get_set_other v p q x h]

@[simp] theorem PerPort.set_set {α : Type} (v : PerPort α) (p : Port) (x y : α) : (v.set p x).set p y = v.set p y := by
  cases p <;> rfl

@[simp] theorem PerPort.set_get {α : Type} (v : PerPort α) (p : Port) : v.set p (v.get p) = v := by cases p <;> rfl

theorem PerPort.ext_get {α : Type} {v w : PerPort α} (h : ∀ p, v.get p = w.get p) : v = w := by
  cases v; cases w
  have h0 := h .ap0
  have h1 := h .ap1
  have h2 := h .ap2
  simp only [PerPort.get] at h0 h1 h2
  subst h0; subst h1; subst h2; rfl

@[simp] theorem PerUnit.get_all {α : Type} (x : α) (u : UnitId) : (PerUnit.all x).get u = x := by cases u <;> rfl

@[simp] theorem PerUnit.get_set_same {α : Type} (v : PerUnit α) (u : UnitId) (x : α) : (v.set u x).get u = x := by
  cases u <;> rfl

theorem PerUnit.get_set {α : Type} (v : PerUnit α) (u w : UnitId) (x : α) :
    (v.set u x).get w = if w = u then x else v.get w := by
  cases u <;> cases w <;> rfl

@[simp] theorem PerGrade.get_all {α : Type} (x : α) (g : Grade) : (PerGrade.all x).get g = x := by cases g <;> rfl

@[simp] theorem Nine.get_all {α : Type} (x : α) (c : Tally) : (Nine.all x).get c = x := by cases c <;> rfl

@[simp] theorem nineMap2_get {α β γ : Type} (f : α → β → γ) (a : Nine α) (b : Nine β) (c : Tally) :
    (nineMap2 f a b).get c = f (a.get c) (b.get c) := by cases c <;> rfl

/-! ### putSlot -/

section

variable (s : State) (n : Nat) (sl : Slot)

@[simp] theorem putSlot_pending : (putSlot s n sl).pending = s.pending := rfl
@[simp] theorem putSlot_startup : (putSlot s n sl).startup = s.startup := rfl
@[simp] theorem putSlot_intake : (putSlot s n sl).intake = s.intake := rfl
@[simp] theorem putSlot_monitor : (putSlot s n sl).monitor = s.monitor := rfl
@[simp] theorem putSlot_table : (putSlot s n sl).table = setSlot s.table n sl := rfl
@[simp] theorem putSlot_classifier : (putSlot s n sl).classifier = s.classifier := rfl
@[simp] theorem putSlot_rating : (putSlot s n sl).rating = s.rating := rfl
@[simp] theorem putSlot_sweep : (putSlot s n sl).sweep = s.sweep := rfl
@[simp] theorem putSlot_log : (putSlot s n sl).log = s.log := rfl
@[simp] theorem putSlot_watch : (putSlot s n sl).watch = s.watch := rfl
@[simp] theorem putSlot_lock : (putSlot s n sl).lock = s.lock := rfl
@[simp] theorem putSlot_queues : (putSlot s n sl).queues = s.queues := rfl
@[simp] theorem putSlot_ports : (putSlot s n sl).ports = s.ports := rfl
@[simp] theorem putSlot_appends : (putSlot s n sl).appends = s.appends := rfl
@[simp] theorem putSlot_posted : (putSlot s n sl).posted = s.posted := rfl
@[simp] theorem putSlot_statusEvents : (putSlot s n sl).statusEvents = s.statusEvents := rfl
@[simp] theorem putSlot_portResets : (putSlot s n sl).portResets = s.portResets := rfl
@[simp] theorem putSlot_softResets : (putSlot s n sl).softResets = s.softResets := rfl

end

/-! ### putPort -/

section

variable (s : State) (p : Port) (a : Access)

@[simp] theorem putPort_pending : (putPort s p a).pending = s.pending := rfl
@[simp] theorem putPort_startup : (putPort s p a).startup = s.startup := rfl
@[simp] theorem putPort_intake : (putPort s p a).intake = s.intake := rfl
@[simp] theorem putPort_monitor : (putPort s p a).monitor = s.monitor := rfl
@[simp] theorem putPort_table : (putPort s p a).table = s.table := rfl
@[simp] theorem putPort_classifier : (putPort s p a).classifier = s.classifier := rfl
@[simp] theorem putPort_rating : (putPort s p a).rating = s.rating := rfl
@[simp] theorem putPort_sweep : (putPort s p a).sweep = s.sweep := rfl
@[simp] theorem putPort_log : (putPort s p a).log = s.log := rfl
@[simp] theorem putPort_watch : (putPort s p a).watch = s.watch := rfl
@[simp] theorem putPort_lock : (putPort s p a).lock = s.lock := rfl
@[simp] theorem putPort_queues : (putPort s p a).queues = s.queues := rfl
@[simp] theorem putPort_ports : (putPort s p a).ports = s.ports.set p a := rfl
@[simp] theorem putPort_appends : (putPort s p a).appends = s.appends := rfl
@[simp] theorem putPort_posted : (putPort s p a).posted = s.posted := rfl
@[simp] theorem putPort_statusEvents : (putPort s p a).statusEvents = s.statusEvents := rfl
@[simp] theorem putPort_portResets : (putPort s p a).portResets = s.portResets := rfl
@[simp] theorem putPort_softResets : (putPort s p a).softResets = s.softResets := rfl

end

/-! ### hand -/

section

variable (s : State) (src : LogSource) (cs : List Condition)

@[simp] theorem hand_pending : (hand s src cs).pending = s.pending := rfl
@[simp] theorem hand_startup : (hand s src cs).startup = s.startup := rfl
@[simp] theorem hand_intake : (hand s src cs).intake = s.intake := rfl
@[simp] theorem hand_monitor : (hand s src cs).monitor = s.monitor := rfl
@[simp] theorem hand_table : (hand s src cs).table = s.table := rfl
@[simp] theorem hand_classifier : (hand s src cs).classifier = s.classifier := rfl
@[simp] theorem hand_rating : (hand s src cs).rating = s.rating := rfl
@[simp] theorem hand_sweep : (hand s src cs).sweep = s.sweep := rfl
@[simp] theorem hand_log : (hand s src cs).log = s.log := rfl
@[simp] theorem hand_watch : (hand s src cs).watch = s.watch := rfl
@[simp] theorem hand_lock : (hand s src cs).lock = s.lock := rfl
@[simp] theorem hand_queues : (hand s src cs).queues = s.queues := rfl
@[simp] theorem hand_ports : (hand s src cs).ports = s.ports := rfl
@[simp] theorem hand_appends : (hand s src cs).appends = s.appends ++ accessAppends src none cs := rfl
@[simp] theorem hand_posted : (hand s src cs).posted = s.posted := rfl
@[simp] theorem hand_statusEvents : (hand s src cs).statusEvents = s.statusEvents := rfl
@[simp] theorem hand_portResets : (hand s src cs).portResets = s.portResets := rfl
@[simp] theorem hand_softResets : (hand s src cs).softResets = s.softResets := rfl

end

/-! ### handHolding -/

section

variable (s : State) (src : LogSource) (p : Port) (cs : List Condition)

@[simp] theorem handHolding_pending : (handHolding s src p cs).pending = s.pending := rfl
@[simp] theorem handHolding_startup : (handHolding s src p cs).startup = s.startup := rfl
@[simp] theorem handHolding_intake : (handHolding s src p cs).intake = s.intake := rfl
@[simp] theorem handHolding_monitor : (handHolding s src p cs).monitor = s.monitor := rfl
@[simp] theorem handHolding_table : (handHolding s src p cs).table = s.table := rfl
@[simp] theorem handHolding_classifier : (handHolding s src p cs).classifier = s.classifier := rfl
@[simp] theorem handHolding_rating : (handHolding s src p cs).rating = s.rating := rfl
@[simp] theorem handHolding_sweep : (handHolding s src p cs).sweep = s.sweep := rfl
@[simp] theorem handHolding_log : (handHolding s src p cs).log = s.log := rfl
@[simp] theorem handHolding_watch : (handHolding s src p cs).watch = s.watch := rfl
@[simp] theorem handHolding_lock : (handHolding s src p cs).lock = s.lock := rfl
@[simp] theorem handHolding_queues : (handHolding s src p cs).queues = s.queues := rfl
@[simp] theorem handHolding_ports : (handHolding s src p cs).ports = s.ports := rfl
@[simp] theorem handHolding_appends : (handHolding s src p cs).appends = s.appends ++ accessAppends src (some p) cs := rfl
@[simp] theorem handHolding_posted : (handHolding s src p cs).posted = s.posted := rfl
@[simp] theorem handHolding_statusEvents : (handHolding s src p cs).statusEvents = s.statusEvents := rfl
@[simp] theorem handHolding_portResets : (handHolding s src p cs).portResets = s.portResets := rfl
@[simp] theorem handHolding_softResets : (handHolding s src p cs).softResets = s.softResets := rfl

end

/-! ### post -/

section

variable (s : State) (src : NoticeSource) (p : Port) (k : NoticeKind) (w : Nat)

@[simp] theorem post_pending : (post s src p k w).pending = s.pending := rfl
@[simp] theorem post_startup : (post s src p k w).startup = s.startup := rfl
@[simp] theorem post_intake : (post s src p k w).intake = s.intake := rfl
@[simp] theorem post_monitor : (post s src p k w).monitor = s.monitor := rfl
@[simp] theorem post_table : (post s src p k w).table = s.table := rfl
@[simp] theorem post_classifier : (post s src p k w).classifier = s.classifier := rfl
@[simp] theorem post_rating : (post s src p k w).rating = s.rating := rfl
@[simp] theorem post_sweep : (post s src p k w).sweep = s.sweep := rfl
@[simp] theorem post_log : (post s src p k w).log = s.log := rfl
@[simp] theorem post_watch : (post s src p k w).watch = s.watch := rfl
@[simp] theorem post_lock : (post s src p k w).lock = s.lock := rfl
@[simp] theorem post_queues : (post s src p k w).queues = s.queues := rfl
@[simp] theorem post_ports : (post s src p k w).ports = s.ports := rfl
@[simp] theorem post_appends : (post s src p k w).appends = s.appends := rfl
@[simp] theorem post_posted : (post s src p k w).posted = s.posted ++
    [{ sender := src, port := p, notice := { kind := k, source := none, word := BitVec.ofNat 32 w } }] := rfl
@[simp] theorem post_statusEvents : (post s src p k w).statusEvents = s.statusEvents := rfl
@[simp] theorem post_portResets : (post s src p k w).portResets = s.portResets := rfl
@[simp] theorem post_softResets : (post s src p k w).softResets = s.softResets := rfl

end

/-! ### signal -/

section

variable (s : State) (p : Port) (l : Latch)

@[simp] theorem signal_pending : (signal s p l).pending = s.pending := rfl
@[simp] theorem signal_startup : (signal s p l).startup = s.startup := rfl
@[simp] theorem signal_intake : (signal s p l).intake = s.intake := rfl
@[simp] theorem signal_monitor : (signal s p l).monitor = s.monitor := rfl
@[simp] theorem signal_table : (signal s p l).table = s.table := rfl
@[simp] theorem signal_classifier : (signal s p l).classifier = s.classifier := rfl
@[simp] theorem signal_rating : (signal s p l).rating = s.rating := rfl
@[simp] theorem signal_sweep : (signal s p l).sweep = s.sweep := rfl
@[simp] theorem signal_log : (signal s p l).log = s.log := rfl
@[simp] theorem signal_watch : (signal s p l).watch = s.watch := rfl
@[simp] theorem signal_lock : (signal s p l).lock = s.lock := rfl
@[simp] theorem signal_queues : (signal s p l).queues = s.queues := rfl
@[simp] theorem signal_ports : (signal s p l).ports = s.ports := rfl
@[simp] theorem signal_appends : (signal s p l).appends = s.appends := rfl
@[simp] theorem signal_posted : (signal s p l).posted = s.posted := rfl
@[simp] theorem signal_statusEvents : (signal s p l).statusEvents = s.statusEvents ++ [{ port := p, latch := l }] := rfl
@[simp] theorem signal_portResets : (signal s p l).portResets = s.portResets := rfl
@[simp] theorem signal_softResets : (signal s p l).softResets = s.softResets := rfl

end

/-! ### giveAnswer -/

section

variable (s : State) (p : Port) (ans : Answer)

@[simp] theorem giveAnswer_pending : (giveAnswer s p ans).pending = s.pending := rfl
@[simp] theorem giveAnswer_startup : (giveAnswer s p ans).startup = s.startup := rfl
@[simp] theorem giveAnswer_intake : (giveAnswer s p ans).intake = s.intake := rfl
@[simp] theorem giveAnswer_monitor : (giveAnswer s p ans).monitor = s.monitor := rfl
@[simp] theorem giveAnswer_table : (giveAnswer s p ans).table = s.table := rfl
@[simp] theorem giveAnswer_classifier : (giveAnswer s p ans).classifier = s.classifier := rfl
@[simp] theorem giveAnswer_rating : (giveAnswer s p ans).rating = s.rating := rfl
@[simp] theorem giveAnswer_sweep : (giveAnswer s p ans).sweep = s.sweep := rfl
@[simp] theorem giveAnswer_log : (giveAnswer s p ans).log = s.log := rfl
@[simp] theorem giveAnswer_watch : (giveAnswer s p ans).watch = s.watch := rfl
@[simp] theorem giveAnswer_lock : (giveAnswer s p ans).lock = s.lock := rfl
@[simp] theorem giveAnswer_queues : (giveAnswer s p ans).queues = s.queues := rfl
@[simp] theorem giveAnswer_ports : (giveAnswer s p ans).ports = s.ports.set p { s.ports.get p with answer := some ans } := rfl
@[simp] theorem giveAnswer_appends : (giveAnswer s p ans).appends = s.appends := rfl
@[simp] theorem giveAnswer_posted : (giveAnswer s p ans).posted = s.posted := rfl
@[simp] theorem giveAnswer_statusEvents : (giveAnswer s p ans).statusEvents = s.statusEvents := rfl
@[simp] theorem giveAnswer_portResets : (giveAnswer s p ans).portResets = s.portResets := rfl
@[simp] theorem giveAnswer_softResets : (giveAnswer s p ans).softResets = s.softResets := rfl

end

/-! ### setUnit -/

section

variable (s : State) (u : UnitId) (w : WatchUnit)

@[simp] theorem setUnit_pending : (setUnit s u w).pending = s.pending := rfl
@[simp] theorem setUnit_startup : (setUnit s u w).startup = s.startup := rfl
@[simp] theorem setUnit_intake : (setUnit s u w).intake = s.intake := rfl
@[simp] theorem setUnit_monitor : (setUnit s u w).monitor = s.monitor := rfl
@[simp] theorem setUnit_table : (setUnit s u w).table = s.table := rfl
@[simp] theorem setUnit_classifier : (setUnit s u w).classifier = s.classifier := rfl
@[simp] theorem setUnit_rating : (setUnit s u w).rating = s.rating := rfl
@[simp] theorem setUnit_sweep : (setUnit s u w).sweep = s.sweep := rfl
@[simp] theorem setUnit_log : (setUnit s u w).log = s.log := rfl
@[simp] theorem setUnit_watch : (setUnit s u w).watch = { s.watch with units := s.watch.units.set u w } := rfl
@[simp] theorem setUnit_lock : (setUnit s u w).lock = s.lock := rfl
@[simp] theorem setUnit_queues : (setUnit s u w).queues = s.queues := rfl
@[simp] theorem setUnit_ports : (setUnit s u w).ports = s.ports := rfl
@[simp] theorem setUnit_appends : (setUnit s u w).appends = s.appends := rfl
@[simp] theorem setUnit_posted : (setUnit s u w).posted = s.posted := rfl
@[simp] theorem setUnit_statusEvents : (setUnit s u w).statusEvents = s.statusEvents := rfl
@[simp] theorem setUnit_portResets : (setUnit s u w).portResets = s.portResets := rfl
@[simp] theorem setUnit_softResets : (setUnit s u w).softResets = s.softResets := rfl

end

/-! ### setCapture -/

section

variable (s : State) (c : Option Capture)

@[simp] theorem setCapture_pending : (setCapture s c).pending = s.pending := rfl
@[simp] theorem setCapture_startup : (setCapture s c).startup = s.startup := rfl
@[simp] theorem setCapture_intake : (setCapture s c).intake = s.intake := rfl
@[simp] theorem setCapture_monitor : (setCapture s c).monitor = s.monitor := rfl
@[simp] theorem setCapture_table : (setCapture s c).table = s.table := rfl
@[simp] theorem setCapture_classifier : (setCapture s c).classifier = s.classifier := rfl
@[simp] theorem setCapture_rating : (setCapture s c).rating = s.rating := rfl
@[simp] theorem setCapture_sweep : (setCapture s c).sweep = s.sweep := rfl
@[simp] theorem setCapture_log : (setCapture s c).log = s.log := rfl
@[simp] theorem setCapture_watch : (setCapture s c).watch = { s.watch with capture := c } := rfl
@[simp] theorem setCapture_lock : (setCapture s c).lock = s.lock := rfl
@[simp] theorem setCapture_queues : (setCapture s c).queues = s.queues := rfl
@[simp] theorem setCapture_ports : (setCapture s c).ports = s.ports := rfl
@[simp] theorem setCapture_appends : (setCapture s c).appends = s.appends := rfl
@[simp] theorem setCapture_posted : (setCapture s c).posted = s.posted := rfl
@[simp] theorem setCapture_statusEvents : (setCapture s c).statusEvents = s.statusEvents := rfl
@[simp] theorem setCapture_portResets : (setCapture s c).portResets = s.portResets := rfl
@[simp] theorem setCapture_softResets : (setCapture s c).softResets = s.softResets := rfl

end

/-! ### setQueue -/

section

variable (s : State) (p : Port) (q : List Notice)

@[simp] theorem setQueue_pending : (setQueue s p q).pending = s.pending := rfl
@[simp] theorem setQueue_startup : (setQueue s p q).startup = s.startup := rfl
@[simp] theorem setQueue_intake : (setQueue s p q).intake = s.intake := rfl
@[simp] theorem setQueue_monitor : (setQueue s p q).monitor = s.monitor := rfl
@[simp] theorem setQueue_table : (setQueue s p q).table = s.table := rfl
@[simp] theorem setQueue_classifier : (setQueue s p q).classifier = s.classifier := rfl
@[simp] theorem setQueue_rating : (setQueue s p q).rating = s.rating := rfl
@[simp] theorem setQueue_sweep : (setQueue s p q).sweep = s.sweep := rfl
@[simp] theorem setQueue_log : (setQueue s p q).log = s.log := rfl
@[simp] theorem setQueue_watch : (setQueue s p q).watch = s.watch := rfl
@[simp] theorem setQueue_lock : (setQueue s p q).lock = s.lock := rfl
@[simp] theorem setQueue_queues : (setQueue s p q).queues = s.queues.set p q := rfl
@[simp] theorem setQueue_ports : (setQueue s p q).ports = s.ports := rfl
@[simp] theorem setQueue_appends : (setQueue s p q).appends = s.appends := rfl
@[simp] theorem setQueue_posted : (setQueue s p q).posted = s.posted := rfl
@[simp] theorem setQueue_statusEvents : (setQueue s p q).statusEvents = s.statusEvents := rfl
@[simp] theorem setQueue_portResets : (setQueue s p q).portResets = s.portResets := rfl
@[simp] theorem setQueue_softResets : (setQueue s p q).softResets = s.softResets := rfl

end

/-! ### setCursor -/

section

variable (s : State) (p : Port) (n : Nat)

@[simp] theorem setCursor_pending : (setCursor s p n).pending = s.pending := rfl
@[simp] theorem setCursor_startup : (setCursor s p n).startup = s.startup := rfl
@[simp] theorem setCursor_intake : (setCursor s p n).intake = s.intake := rfl
@[simp] theorem setCursor_monitor : (setCursor s p n).monitor = s.monitor := rfl
@[simp] theorem setCursor_table : (setCursor s p n).table = s.table := rfl
@[simp] theorem setCursor_classifier : (setCursor s p n).classifier = s.classifier := rfl
@[simp] theorem setCursor_rating : (setCursor s p n).rating = s.rating := rfl
@[simp] theorem setCursor_sweep : (setCursor s p n).sweep = s.sweep := rfl
@[simp] theorem setCursor_log : (setCursor s p n).log = { s.log with cursors := s.log.cursors.set p n } := rfl
@[simp] theorem setCursor_watch : (setCursor s p n).watch = s.watch := rfl
@[simp] theorem setCursor_lock : (setCursor s p n).lock = s.lock := rfl
@[simp] theorem setCursor_queues : (setCursor s p n).queues = s.queues := rfl
@[simp] theorem setCursor_ports : (setCursor s p n).ports = s.ports := rfl
@[simp] theorem setCursor_appends : (setCursor s p n).appends = s.appends := rfl
@[simp] theorem setCursor_posted : (setCursor s p n).posted = s.posted := rfl
@[simp] theorem setCursor_statusEvents : (setCursor s p n).statusEvents = s.statusEvents := rfl
@[simp] theorem setCursor_portResets : (setCursor s p n).portResets = s.portResets := rfl
@[simp] theorem setCursor_softResets : (setCursor s p n).softResets = s.softResets := rfl

end

/-! ### setMarkWalk -/

section

variable (s : State) (p : Port) (w : Option MarkWalk)

@[simp] theorem setMarkWalk_pending : (setMarkWalk s p w).pending = s.pending := rfl
@[simp] theorem setMarkWalk_startup : (setMarkWalk s p w).startup = s.startup := rfl
@[simp] theorem setMarkWalk_intake : (setMarkWalk s p w).intake = s.intake := rfl
@[simp] theorem setMarkWalk_monitor : (setMarkWalk s p w).monitor = s.monitor := rfl
@[simp] theorem setMarkWalk_table : (setMarkWalk s p w).table = { s.table with markWalks := s.table.markWalks.set p w } := rfl
@[simp] theorem setMarkWalk_classifier : (setMarkWalk s p w).classifier = s.classifier := rfl
@[simp] theorem setMarkWalk_rating : (setMarkWalk s p w).rating = s.rating := rfl
@[simp] theorem setMarkWalk_sweep : (setMarkWalk s p w).sweep = s.sweep := rfl
@[simp] theorem setMarkWalk_log : (setMarkWalk s p w).log = s.log := rfl
@[simp] theorem setMarkWalk_watch : (setMarkWalk s p w).watch = s.watch := rfl
@[simp] theorem setMarkWalk_lock : (setMarkWalk s p w).lock = s.lock := rfl
@[simp] theorem setMarkWalk_queues : (setMarkWalk s p w).queues = s.queues := rfl
@[simp] theorem setMarkWalk_ports : (setMarkWalk s p w).ports = s.ports := rfl
@[simp] theorem setMarkWalk_appends : (setMarkWalk s p w).appends = s.appends := rfl
@[simp] theorem setMarkWalk_posted : (setMarkWalk s p w).posted = s.posted := rfl
@[simp] theorem setMarkWalk_statusEvents : (setMarkWalk s p w).statusEvents = s.statusEvents := rfl
@[simp] theorem setMarkWalk_portResets : (setMarkWalk s p w).portResets = s.portResets := rfl
@[simp] theorem setMarkWalk_softResets : (setMarkWalk s p w).softResets = s.softResets := rfl

end

/-! ### setTimebaseState -/

section

variable (s : State) (b : Timebase)

@[simp] theorem setTimebaseState_pending : (setTimebaseState s b).pending = s.pending := rfl
@[simp] theorem setTimebaseState_startup : (setTimebaseState s b).startup = s.startup := rfl
@[simp] theorem setTimebaseState_intake : (setTimebaseState s b).intake = s.intake := rfl
@[simp] theorem setTimebaseState_monitor : (setTimebaseState s b).monitor = { s.monitor with state := b } := rfl
@[simp] theorem setTimebaseState_table : (setTimebaseState s b).table = s.table := rfl
@[simp] theorem setTimebaseState_classifier : (setTimebaseState s b).classifier = s.classifier := rfl
@[simp] theorem setTimebaseState_rating : (setTimebaseState s b).rating = s.rating := rfl
@[simp] theorem setTimebaseState_sweep : (setTimebaseState s b).sweep = s.sweep := rfl
@[simp] theorem setTimebaseState_log : (setTimebaseState s b).log = s.log := rfl
@[simp] theorem setTimebaseState_watch : (setTimebaseState s b).watch = s.watch := rfl
@[simp] theorem setTimebaseState_lock : (setTimebaseState s b).lock = s.lock := rfl
@[simp] theorem setTimebaseState_queues : (setTimebaseState s b).queues = s.queues := rfl
@[simp] theorem setTimebaseState_ports : (setTimebaseState s b).ports = s.ports := rfl
@[simp] theorem setTimebaseState_appends : (setTimebaseState s b).appends = s.appends := rfl
@[simp] theorem setTimebaseState_posted : (setTimebaseState s b).posted = s.posted := rfl
@[simp] theorem setTimebaseState_statusEvents : (setTimebaseState s b).statusEvents = s.statusEvents := rfl
@[simp] theorem setTimebaseState_portResets : (setTimebaseState s b).portResets = s.portResets := rfl
@[simp] theorem setTimebaseState_softResets : (setTimebaseState s b).softResets = s.softResets := rfl

end

/-! ### setRun -/

section

variable (s : State) (k : Nat)

@[simp] theorem setRun_pending : (setRun s k).pending = s.pending := rfl
@[simp] theorem setRun_startup : (setRun s k).startup = s.startup := rfl
@[simp] theorem setRun_intake : (setRun s k).intake = s.intake := rfl
@[simp] theorem setRun_monitor : (setRun s k).monitor = { s.monitor with run := k } := rfl
@[simp] theorem setRun_table : (setRun s k).table = s.table := rfl
@[simp] theorem setRun_classifier : (setRun s k).classifier = s.classifier := rfl
@[simp] theorem setRun_rating : (setRun s k).rating = s.rating := rfl
@[simp] theorem setRun_sweep : (setRun s k).sweep = s.sweep := rfl
@[simp] theorem setRun_log : (setRun s k).log = s.log := rfl
@[simp] theorem setRun_watch : (setRun s k).watch = s.watch := rfl
@[simp] theorem setRun_lock : (setRun s k).lock = s.lock := rfl
@[simp] theorem setRun_queues : (setRun s k).queues = s.queues := rfl
@[simp] theorem setRun_ports : (setRun s k).ports = s.ports := rfl
@[simp] theorem setRun_appends : (setRun s k).appends = s.appends := rfl
@[simp] theorem setRun_posted : (setRun s k).posted = s.posted := rfl
@[simp] theorem setRun_statusEvents : (setRun s k).statusEvents = s.statusEvents := rfl
@[simp] theorem setRun_portResets : (setRun s k).portResets = s.portResets := rfl
@[simp] theorem setRun_softResets : (setRun s k).softResets = s.softResets := rfl

end

/-! ### leaveWaiters -/

section

variable (s : State) (p : Port)

@[simp] theorem leaveWaiters_pending : (leaveWaiters s p).pending = s.pending := rfl
@[simp] theorem leaveWaiters_startup : (leaveWaiters s p).startup = s.startup := rfl
@[simp] theorem leaveWaiters_intake : (leaveWaiters s p).intake = s.intake := rfl
@[simp] theorem leaveWaiters_monitor : (leaveWaiters s p).monitor = s.monitor := rfl
@[simp] theorem leaveWaiters_table : (leaveWaiters s p).table = s.table := rfl
@[simp] theorem leaveWaiters_classifier : (leaveWaiters s p).classifier = s.classifier := rfl
@[simp] theorem leaveWaiters_rating : (leaveWaiters s p).rating = s.rating := rfl
@[simp] theorem leaveWaiters_sweep : (leaveWaiters s p).sweep = s.sweep := rfl
@[simp] theorem leaveWaiters_log : (leaveWaiters s p).log = s.log := rfl
@[simp] theorem leaveWaiters_watch : (leaveWaiters s p).watch = s.watch := rfl
@[simp] theorem leaveWaiters_lock : (leaveWaiters s p).lock = { s.lock with waiters := s.lock.waiters.filter (· != p) } := rfl
@[simp] theorem leaveWaiters_queues : (leaveWaiters s p).queues = s.queues := rfl
@[simp] theorem leaveWaiters_ports : (leaveWaiters s p).ports = s.ports := rfl
@[simp] theorem leaveWaiters_appends : (leaveWaiters s p).appends = s.appends := rfl
@[simp] theorem leaveWaiters_posted : (leaveWaiters s p).posted = s.posted := rfl
@[simp] theorem leaveWaiters_statusEvents : (leaveWaiters s p).statusEvents = s.statusEvents := rfl
@[simp] theorem leaveWaiters_portResets : (leaveWaiters s p).portResets = s.portResets := rfl
@[simp] theorem leaveWaiters_softResets : (leaveWaiters s p).softResets = s.softResets := rfl

end

/-! ### setLeaseRemaining -/

section

variable (s : State) (h : Holding) (l : Option Nat)

@[simp] theorem setLeaseRemaining_pending : (setLeaseRemaining s h l).pending = s.pending := rfl
@[simp] theorem setLeaseRemaining_startup : (setLeaseRemaining s h l).startup = s.startup := rfl
@[simp] theorem setLeaseRemaining_intake : (setLeaseRemaining s h l).intake = s.intake := rfl
@[simp] theorem setLeaseRemaining_monitor : (setLeaseRemaining s h l).monitor = s.monitor := rfl
@[simp] theorem setLeaseRemaining_table : (setLeaseRemaining s h l).table = s.table := rfl
@[simp] theorem setLeaseRemaining_classifier : (setLeaseRemaining s h l).classifier = s.classifier := rfl
@[simp] theorem setLeaseRemaining_rating : (setLeaseRemaining s h l).rating = s.rating := rfl
@[simp] theorem setLeaseRemaining_sweep : (setLeaseRemaining s h l).sweep = s.sweep := rfl
@[simp] theorem setLeaseRemaining_log : (setLeaseRemaining s h l).log = s.log := rfl
@[simp] theorem setLeaseRemaining_watch : (setLeaseRemaining s h l).watch = s.watch := rfl
@[simp] theorem setLeaseRemaining_lock :
    (setLeaseRemaining s h l).lock = { s.lock with holding := some { h with lease := l } } := rfl
@[simp] theorem setLeaseRemaining_queues : (setLeaseRemaining s h l).queues = s.queues := rfl
@[simp] theorem setLeaseRemaining_ports : (setLeaseRemaining s h l).ports = s.ports := rfl
@[simp] theorem setLeaseRemaining_appends : (setLeaseRemaining s h l).appends = s.appends := rfl
@[simp] theorem setLeaseRemaining_posted : (setLeaseRemaining s h l).posted = s.posted := rfl
@[simp] theorem setLeaseRemaining_statusEvents : (setLeaseRemaining s h l).statusEvents = s.statusEvents := rfl
@[simp] theorem setLeaseRemaining_portResets : (setLeaseRemaining s h l).portResets = s.portResets := rfl
@[simp] theorem setLeaseRemaining_softResets : (setLeaseRemaining s h l).softResets = s.softResets := rfl

end

end Sys2Proof.Machine
end

