-- ==== Sys2Proof/Laws/Ops.lean ====
section
/-! SUPPORT. What each shared operation of Machine/Ops.lean does, said once. -/

namespace Sys2Proof.Machine

/-! ### Slots -/

theorem slotAt_ge (t : Table) (n : Nat) (h : 512 ≤ n) : slotAt t n = .free := by
  simp [slotAt, h]

theorem slotAt_lt (t : Table) (n : Nat) (h : n < 512) : slotAt t n = t.slots[n] := by
  simp [slotAt, h]

/-- A slot outside FREE has a number below 512. -/
theorem lt_of_slotAt_ne_free (t : Table) (n : Nat) (h : (slotAt t n).state ≠ .free) : n < 512 := by
  by_cases hn : n < 512
  · exact hn
  · rw [slotAt_ge t n (by omega)] at h
    exact absurd rfl h

theorem slotAt_setSlot (t : Table) (n m : Nat) (sl : Slot) (h : n < 512) :
    slotAt (setSlot t n sl) m = if m = n then sl else slotAt t m := by
  unfold slotAt setSlot
  by_cases hm : m = n
  · subst hm; simp [h]
  · simp [hm, Vector.getElem?_setIfInBounds_ne (Ne.symm hm)]

@[simp] theorem slotAt_setSlot_same (t : Table) (n : Nat) (sl : Slot) (h : n < 512) : slotAt (setSlot t n sl) n = sl := by
  simp [slotAt_setSlot t n n sl h]

theorem setSlot_ge (t : Table) (n : Nat) (sl : Slot) (h : 512 ≤ n) : setSlot t n sl = t := by
  unfold setSlot
  rw [Vector.setIfInBounds_eq_of_size_le (by omega)]

@[simp] theorem setSlot_slotAt (t : Table) (n : Nat) : setSlot t n (slotAt t n) = t := by
  by_cases h : n < 512
  · unfold setSlot
    rw [slotAt_lt t n h]
    have : t.slots.setIfInBounds n t.slots[n] = t.slots := by
      ext i hi
      by_cases hin : i = n
      · subst hin; simp
      · simp [Ne.symm hin]
    rw [this]
  · exact setSlot_ge t n _ (by omega)

@[simp] theorem setSlot_setSlot (t : Table) (n : Nat) (a b : Slot) : setSlot (setSlot t n a) n b = setSlot t n b := by
  by_cases h : n < 512
  · unfold setSlot
    have : (t.slots.setIfInBounds n a).setIfInBounds n b = t.slots.setIfInBounds n b := by
      ext i hi
      by_cases hin : n = i <;> simp [hin]
    simp only [this]
  · rw [setSlot_ge t n a (by omega)]

@[simp] theorem putSlot_slotAt (s : State) (n : Nat) : putSlot s n (slotAt s.table n) = s := by
  unfold putSlot
  rw [setSlot_slotAt]

@[simp] theorem putSlot_putSlot (s : State) (n : Nat) (a b : Slot) : putSlot (putSlot s n a) n b = putSlot s n b := by
  unfold putSlot
  simp only [setSlot_setSlot]

theorem slotAt_mapSlots (t : Table) (f : Nat → Slot → Slot) (n : Nat) (h : n < 512) :
    slotAt (mapSlots t f) n = f n (slotAt t n) := by
  rw [slotAt_lt _ n h, slotAt_lt t n h]
  simp [mapSlots]

@[simp] theorem setSlot_strays (t : Table) (n : Nat) (sl : Slot) : (setSlot t n sl).strays = t.strays := rfl
@[simp] theorem setSlot_silence (t : Table) (n : Nat) (sl : Slot) : (setSlot t n sl).silence = t.silence := rfl
@[simp] theorem setSlot_markWalks (t : Table) (n : Nat) (sl : Slot) : (setSlot t n sl).markWalks = t.markWalks := rfl
@[simp] theorem mapSlots_strays (t : Table) (f : Nat → Slot → Slot) : (mapSlots t f).strays = t.strays := rfl
@[simp] theorem mapSlots_silence (t : Table) (f : Nat → Slot → Slot) : (mapSlots t f).silence = t.silence := rfl
@[simp] theorem mapSlots_markWalks (t : Table) (f : Nat → Slot → Slot) : (mapSlots t f).markWalks = t.markWalks := rfl

@[simp] theorem disturb_false (sl : Slot) : disturb false sl = sl := by simp [disturb]
@[simp] theorem disturb_state (b : Bool) (sl : Slot) : (disturb b sl).state = sl.state := rfl
@[simp] theorem disturb_tag (b : Bool) (sl : Slot) : (disturb b sl).tag = sl.tag := rfl
@[simp] theorem disturb_record (b : Bool) (sl : Slot) : (disturb b sl).record = sl.record := rfl
@[simp] theorem faultSlot_state (sl : Slot) : (faultSlot sl).state = .faulted := rfl
@[simp] theorem faultSlot_tag (sl : Slot) : (faultSlot sl).tag = sl.tag := rfl
@[simp] theorem faultSlot_record (sl : Slot) : (faultSlot sl).record = sl.record := rfl

/-- The first index at which a predicate of the slots holds, as an index below 512. -/
theorem findSlot_some (t : Table) (q : Slot → Bool) (n : Nat) (h : t.slots.toList.findIdx? q = some n) :
    n < 512 ∧ q (slotAt t n) = true ∧ ∀ m, m < n → q (slotAt t m) = false := by
  rw [List.findIdx?_eq_some_iff_getElem] at h
  obtain ⟨hn, hq, hlt⟩ := h
  have hn' : n < 512 := by simpa using hn
  refine ⟨hn', ?_, ?_⟩
  · rw [slotAt_lt t n hn']; simpa using hq
  · intro m hm
    rw [slotAt_lt t m (by omega)]
    have := hlt m hm
    simpa using this

theorem findSlot_none (t : Table) (q : Slot → Bool) (h : t.slots.toList.findIdx? q = none) (n : Nat) (hn : n < 512) :
    q (slotAt t n) = false := by
  rw [List.findIdx?_eq_none_iff] at h
  rw [slotAt_lt t n hn]
  exact h _ (by simp)

/-- The converse of `findSlot_some`. -/
theorem findSlot_eq_some (t : Table) (q : Slot → Bool) (n : Nat) (hn : n < 512) (hq : q (slotAt t n) = true)
    (hlt : ∀ m, m < n → q (slotAt t m) = false) : t.slots.toList.findIdx? q = some n := by
  rw [List.findIdx?_eq_some_iff_getElem]
  refine ⟨by simpa using hn, ?_, ?_⟩
  · rw [slotAt_lt t n hn] at hq; simpa using hq
  · intro m hm
    have := hlt m hm
    rw [slotAt_lt t m (by omega)] at this
    simpa using this

/-- The converse of `findSlot_none`. -/
theorem findSlot_eq_none (t : Table) (q : Slot → Bool) (h : ∀ n, n < 512 → q (slotAt t n) = false) :
    t.slots.toList.findIdx? q = none := by
  rw [List.findIdx?_eq_none_iff]
  intro sl hsl
  obtain ⟨i, hi, rfl⟩ := List.getElem_of_mem hsl
  have hi' : i < 512 := by simpa using hi
  have := h i hi'
  rw [slotAt_lt t i hi'] at this
  simpa using this

/-- The tag map answers a slot outside FREE that holds the tag (R32). -/
theorem slotOfTag_some (t : Table) (tag : Half) (n : Nat) (h : slotOfTag t tag = some n) :
    n < 512 ∧ (slotAt t n).state ≠ .free ∧ (slotAt t n).tag = tag := by
  have := findSlot_some t _ n h
  simp only [Bool.and_eq_true, bne_iff_ne, beq_iff_eq] at this
  exact ⟨this.1, this.2.1.1, this.2.1.2⟩

/-- The tag map answers none exactly when no slot outside FREE holds the tag (R32). -/
theorem slotOfTag_none_iff (t : Table) (tag : Half) :
    slotOfTag t tag = none ↔ ∀ n, (slotAt t n).state ≠ .free → (slotAt t n).tag ≠ tag := by
  constructor
  · intro h n hs ht
    have hn := lt_of_slotAt_ne_free t n hs
    have := findSlot_none t _ h n hn
    simp [hs, ht] at this
  · intro h
    refine findSlot_eq_none t _ (fun n _ => ?_)
    by_cases hs : (slotAt t n).state = .free
    · simp [hs]
    · simp [h n hs]

/-- A tag that one slot outside FREE holds alone is mapped to that slot (R32). -/
theorem slotOfTag_eq_some (t : Table) (tag : Half) (n : Nat) (hs : (slotAt t n).state ≠ .free) (ht : (slotAt t n).tag = tag)
    (only : ∀ m, (slotAt t m).state ≠ .free → (slotAt t m).tag = tag → m = n) : slotOfTag t tag = some n := by
  refine findSlot_eq_some t _ n (lt_of_slotAt_ne_free t n hs) (by simp [hs, ht]) (fun m hm => ?_)
  by_cases h1 : (slotAt t m).state = .free
  · simp [h1]
  · by_cases h2 : (slotAt t m).tag = tag
    · exact absurd (only m h1 h2) (by omega)
    · simp [h2]

/-- The lowest FREE slot is FREE and every slot below it is not (R35). -/
theorem lowestFree_some (t : Table) (n : Nat) (h : lowestFree t = some n) :
    n < 512 ∧ (slotAt t n).state = .free ∧ ∀ m, m < n → (slotAt t m).state ≠ .free := by
  have := findSlot_some t _ n h
  simp only [beq_iff_eq, beq_eq_false_iff_ne] at this
  exact this

theorem lowestFree_eq_some (t : Table) (n : Nat) (hn : n < 512) (hs : (slotAt t n).state = .free)
    (hlt : ∀ m, m < n → (slotAt t m).state ≠ .free) : lowestFree t = some n :=
  findSlot_eq_some t _ n hn (by simp [hs]) (fun m hm => by simp [hlt m hm])

theorem lowestFree_eq_none (t : Table) (h : ∀ n, n < 512 → (slotAt t n).state ≠ .free) : lowestFree t = none :=
  findSlot_eq_none t _ (fun n hn => by simp [h n hn])

/-! ### Appends -/

@[simp] theorem accessAppends_nil (src : LogSource) (holds : Option Port) : accessAppends src holds [] = [] := rfl

@[simp] theorem accessAppends_one (src : LogSource) (holds : Option Port) (c : Condition) :
    accessAppends src holds [c] = [{ source := src, condition := c, last := true, holds := holds }] := rfl

/-- Handing over no record changes nothing. -/
@[simp] theorem hand_nil (s : State) (src : LogSource) : hand s src [] = s := by simp [hand]

@[simp] theorem handHolding_nil (s : State) (src : LogSource) (p : Port) : handHolding s src p [] = s := by simp [handHolding]

/-! ### The end of an access (R47) -/

/-- An access whose read at the end passes keeps its slot and hands its drafts over with the view of the record. -/
theorem endAccess_good (cycle : Word) (n : Nat) (sl : Slot) (code : Nat) (drafts : List Draft) (h : sl.parityGood = true) :
    endAccess cycle n sl false code drafts =
      { slot := sl, view := some (viewOf sl.record),
        conditions := drafts.map (viewedCondition cycle n sl.tag (some (viewOf sl.record))) } := by
  simp [endAccess, h]

/-- An access whose read at the end fails makes its slot FAULTED, strips its drafts and adds RECORD_FAULT. -/
theorem endAccess_bad (cycle : Word) (n : Nat) (sl : Slot) (code : Nat) (drafts : List Draft) :
    endAccess cycle n sl true code drafts =
      { slot := faultSlot (disturb true sl), view := none,
        conditions := drafts.map (viewedCondition cycle n sl.tag none) ++ [recordFault cycle n sl.tag code] } := by
  simp [endAccess, disturb]

/-- The slot an access ends with keeps its tag and its record; its state is kept or FAULTED. -/
theorem endAccess_slot (cycle : Word) (n : Nat) (sl : Slot) (during : Bool) (code : Nat) (drafts : List Draft) :
    (endAccess cycle n sl during code drafts).slot.tag = sl.tag
      ∧ (endAccess cycle n sl during code drafts).slot.record = sl.record
      ∧ ((endAccess cycle n sl during code drafts).slot.state = sl.state
          ∨ (endAccess cycle n sl during code drafts).slot.state = .faulted) := by
  unfold endAccess
  dsimp only
  split <;> simp

/-! ### Events and requests -/

theorem whenRunning_running (f : State → State) (s : State) (h : s.startup = .running) : whenRunning f s = f s := by
  simp [whenRunning, h]

theorem whenRunning_not (f : State → State) (s : State) (h : s.startup ≠ .running) : whenRunning f s = s := by
  simp [whenRunning, h]

/-- An event leaves the state as it is or does its work. -/
theorem whenRunning_cases (f : State → State) (s : State) : whenRunning f s = s ∨ whenRunning f s = f s := by
  unfold whenRunning
  split
  · exact .inr rfl
  · exact .inl rfl

/-- A block that takes the request in hand of a port: nothing takes place, or the request is marked as taken, its work is done
and its answer, if it is given now, waits for the port. -/
theorem serve_cases (c : Command) (p : Port) (f : List Byte → State → Served) (s : State) :
    serve c p f s = s
      ∨ ∃ args, requestArgs (s.ports.get p) c = some args ∧
          ((f args (putPort s p (markTaken (s.ports.get p)))).2 = none
              ∧ serve c p f s = (f args (putPort s p (markTaken (s.ports.get p)))).1
            ∨ ∃ ans, (f args (putPort s p (markTaken (s.ports.get p)))).2 = some ans
                ∧ serve c p f s = giveAnswer (f args (putPort s p (markTaken (s.ports.get p)))).1 p ans) := by
  unfold serve
  cases h : requestArgs (s.ports.get p) c with
  | none => exact .inl rfl
  | some args =>
    refine .inr ⟨args, rfl, ?_⟩
    cases h2 : (f args (putPort s p (markTaken (s.ports.get p)))).2 with
    | none => exact .inl ⟨rfl, by simp only [h2]⟩
    | some ans => exact .inr ⟨ans, rfl, by simp only [h2]⟩

/-- A request in hand that its block has not taken is taken with its arguments. -/
theorem requestArgs_some (a : Access) (c : Command) (number : Byte) (args : List Byte) (hs : a.state = .executing)
    (hr : a.request = some { code := commandCode c, number := number, args := args, taken := false }) :
    requestArgs a c = some args := by
  simp [requestArgs, hs, hr]

/-- Serving a request in hand. -/
theorem serve_eq (c : Command) (p : Port) (f : List Byte → State → Served) (s : State) (args : List Byte)
    (h : requestArgs (s.ports.get p) c = some args) :
    serve c p f s =
      match f args (putPort s p (markTaken (s.ports.get p))) with
      | (t, none) => t
      | (t, some ans) => giveAnswer t p ans := by
  unfold serve
  rw [h]
  dsimp only
  cases h2 : f args (putPort s p (markTaken (s.ports.get p))) with
  | mk t o => cases o <;> rfl

theorem underLock_holds (p : Port) (f : List Byte → State → Served) (args : List Byte) (s : State)
    (h : holdsLock s p = true) : underLock p f args s = f args s := by simp [underLock, h]

theorem underLock_not (p : Port) (f : List Byte → State → Served) (args : List Byte) (s : State)
    (h : holdsLock s p = false) : underLock p f args s = refuse s .lockRequired := by simp [underLock, h]

@[simp] theorem noArgs_nil (f : State → Served) (s : State) : noArgs f [] s = f s := rfl

theorem noArgs_cons (f : State → Served) (args : List Byte) (s : State) (h : args ≠ []) :
    noArgs f args s = refuse s .badValue := by
  cases args with
  | nil => exact absurd rfl h
  | cons => rfl

/-- A record access by a command, with the state's slot undisturbed (R34). -/
theorem onRecord_good (n : Nat) (f : Slot → State → Served) (s : State) (hl : stateLive (slotAt s.table n).state = true)
    (hp : (slotAt s.table n).parityGood = true) : onRecord n false f s = f (slotAt s.table n) s := by
  unfold onRecord
  cases h : (slotAt s.table n).state <;> simp [h, stateLive] at hl ⊢ <;> simp [hp]

theorem onRecord_free (n : Nat) (f : Slot → State → Served) (s : State) (h : (slotAt s.table n).state = .free) :
    onRecord n false f s = refuse s .noSuchStream := by
  simp [onRecord, h]

theorem onRecord_faulted (n : Nat) (f : Slot → State → Served) (s : State) (h : (slotAt s.table n).state = .faulted) :
    onRecord n false f s = refuse s .faulted := by
  simp [onRecord, h]

/-- A record whose parity fails at a command: the slot is FAULTED and RECORD_FAULT, detail 6, is handed over (R46). -/
theorem onRecord_bad (n : Nat) (upset : Bool) (f : Slot → State → Served) (s : State)
    (hl : stateLive (slotAt s.table n).state = true) (hp : ((slotAt s.table n).parityGood && !upset) = false) :
    onRecord n upset f s =
      refuse (failAccess s (cycleNow s) n (disturb upset (slotAt s.table n)) 6) .faulted := by
  have hd : (disturb upset (slotAt s.table n)).parityGood = false := hp
  unfold onRecord
  simp only [disturb_state, hd]
  cases h : (slotAt s.table n).state <;> simp [h, stateLive] at hl ⊢ <;> simp [failAccess, cycleNow]

end Sys2Proof.Machine
end

