-- ==== Sys2Proof/Laws/Requests.lean ====
section
/-! SUPPORT. A command row on a port whose request it is: the block's work on the state with the request taken, and its
answer. -/

namespace Sys2Proof.Safety

open Sys2Proof.Machine

/-- A request in hand with a command's code gives the command its arguments. -/
theorem InHand.requestArgs {s : State} {p : Port} {code : Byte} {args : List Byte} (h : InHand s p code args) (c : Command)
    (hc : commandCode c = code) : requestArgs (s.ports.get p) c = some args := by
  obtain ⟨hs, number, hr⟩ := h
  subst hc
  exact requestArgs_some _ c number args hs hr

theorem taken_eq (s : State) (p : Port) : putPort s p (markTaken (s.ports.get p)) = taken s p := rfl

/-- The answer given on a state whose request is marked as taken. -/
theorem giveAnswer_taken (s : State) (p : Port) (ans : Answer) : giveAnswer (taken s p) p ans = answered s p ans := by
  simp [giveAnswer, taken, answered, putPort]

@[simp] theorem taken_pending (s : State) (p : Port) : (taken s p).pending = s.pending := rfl
@[simp] theorem taken_startup (s : State) (p : Port) : (taken s p).startup = s.startup := rfl
@[simp] theorem taken_intake (s : State) (p : Port) : (taken s p).intake = s.intake := rfl
@[simp] theorem taken_monitor (s : State) (p : Port) : (taken s p).monitor = s.monitor := rfl
@[simp] theorem taken_table (s : State) (p : Port) : (taken s p).table = s.table := rfl
@[simp] theorem taken_classifier (s : State) (p : Port) : (taken s p).classifier = s.classifier := rfl
@[simp] theorem taken_rating (s : State) (p : Port) : (taken s p).rating = s.rating := rfl
@[simp] theorem taken_sweep (s : State) (p : Port) : (taken s p).sweep = s.sweep := rfl
@[simp] theorem taken_log (s : State) (p : Port) : (taken s p).log = s.log := rfl
@[simp] theorem taken_watch (s : State) (p : Port) : (taken s p).watch = s.watch := rfl
@[simp] theorem taken_lock (s : State) (p : Port) : (taken s p).lock = s.lock := rfl
@[simp] theorem taken_queues (s : State) (p : Port) : (taken s p).queues = s.queues := rfl
@[simp] theorem taken_appends (s : State) (p : Port) : (taken s p).appends = s.appends := rfl
@[simp] theorem taken_posted (s : State) (p : Port) : (taken s p).posted = s.posted := rfl
@[simp] theorem taken_statusEvents (s : State) (p : Port) : (taken s p).statusEvents = s.statusEvents := rfl
@[simp] theorem taken_portResets (s : State) (p : Port) : (taken s p).portResets = s.portResets := rfl
@[simp] theorem taken_softResets (s : State) (p : Port) : (taken s p).softResets = s.softResets := rfl

/-- Serving a request that is in hand. -/
theorem serve_inHand {s : State} {p : Port} {code : Byte} {args : List Byte} (h : InHand s p code args) (c : Command)
    (hc : commandCode c = code) (f : List Byte → State → Served) :
    serve c p f s =
      match f args (taken s p) with
      | (t, none) => t
      | (t, some ans) => giveAnswer t p ans :=
  serve_eq c p f s args (h.requestArgs c hc)

/-- Serving a request whose block answers and changes nothing. -/
theorem serve_inHand_answer {s : State} {p : Port} {code : Byte} {args : List Byte} (h : InHand s p code args) (c : Command)
    (hc : commandCode c = code) (f : List Byte → State → Served) (ans : Answer) (hf : f args (taken s p) = (taken s p, some ans)) :
    serve c p f s = answered s p ans := by
  rw [serve_inHand h c hc, hf]
  exact giveAnswer_taken s p ans

theorem holdsLock_of_holds {s : State} {p : Port} (h : Holds s p) : holdsLock s p = true := by
  obtain ⟨lease, hl⟩ := h
  simp [holdsLock, hl]

theorem holdsLock_taken {s : State} {p : Port} (h : Holds s p) : holdsLock (taken s p) p = true := by
  obtain ⟨lease, hl⟩ := h
  simp [holdsLock, hl]

/-- A command on a readable slot does its work on the slot. -/
theorem onRecord_taken {s : State} {p : Port} {n : Nat} (h : Readable s n) (f : Slot → State → Served) :
    onRecord n false f (taken s p) = f (slotAt s.table n) (taken s p) :=
  onRecord_good n f (taken s p) h.1 h.2

/-- A command that finds a slot's parity failing: the slot is FAULTED, the record handed over, the answer FAULTED (R46). -/
theorem failAccess_answered (s : State) (p : Port) (n code : Nat) (upset : Bool) (h : ParityFails s n upset) :
    giveAnswer (failAccess (taken s p) (cycleNow s) n (disturb upset (slotAt s.table n)) code) p (.bare .faulted)
      = answered (afterFault s s.monitor.cycleCount n code) p (.bare .faulted) := by
  have h2 := h.2
  simp [failAccess, hand, putSlot, giveAnswer, answered, taken, putPort, afterFault, cycleNow, faultSlot, disturb, h2,
    recordFault, slotCondition, plainCondition, kindUrgent, appendOf, slotRecord, bareRecord]

/-- The same at an event of a block. -/
theorem failAccess_eq (s : State) (cycle : Word) (n code : Nat) (upset : Bool)
    (h : ((slotAt s.table n).parityGood && !upset) = false) :
    failAccess s cycle n (disturb upset (slotAt s.table n)) code = afterFault s cycle n code := by
  simp [failAccess, hand, putSlot, afterFault, faultSlot, disturb, h, recordFault, slotCondition, plainCondition,
    kindUrgent, appendOf, slotRecord, bareRecord]

end Sys2Proof.Safety
end

