-- ==== Sys2Proof/Laws/Events.lean ====
section
/-! SUPPORT. What waits between blocks and how it is taken: appends, notices and status events, oldest first; ATTN; the lock check;
the checks of a request frame. Each operation in the words of Safety.lean. -/

namespace Sys2Proof.Machine

open Sys2Proof.Safety

/-! ### The oldest of a source -/

theorem takeAppend_eq (src : LogSource) (a : Append) (before after : List Append) (h : a.source = src)
    (hb : ∀ x ∈ before, x.source ≠ src) : takeAppend src (before ++ a :: after) = some (a, before ++ after) := by
  induction before with
  | nil => simp [takeAppend, h]
  | cons x xs ih =>
    have hx := hb x (by simp)
    simp only [List.cons_append, takeAppend, if_neg hx]
    rw [ih (fun y hy => hb y (by simp [hy]))]
    rfl

theorem takePosted_eq (src : NoticeSource) (n : Posted) (before after : List Posted) (h : n.sender = src)
    (hb : ∀ x ∈ before, x.sender ≠ src) : takePosted src (before ++ n :: after) = some (n, before ++ after) := by
  induction before with
  | nil => simp [takePosted, h]
  | cons x xs ih =>
    have hx := hb x (by simp)
    simp only [List.cons_append, takePosted, if_neg hx]
    rw [ih (fun y hy => hb y (by simp [hy]))]
    rfl

theorem takeStatusEvent_eq (e : StatusEvent) (before after : List StatusEvent) (hb : ∀ x ∈ before, x ≠ e) :
    takeStatusEvent e (before ++ e :: after) = some (before ++ after) := by
  induction before with
  | nil => simp [takeStatusEvent]
  | cons x xs ih =>
    have hx := hb x (by simp)
    simp only [List.cons_append, takeStatusEvent, if_neg hx]
    rw [ih (fun y hy => hb y (by simp [hy]))]
    rfl

/-! ### Status and ATTN (R164, R165, R180) -/

theorem statusBits_toNat (l : Latches) (queue : List Notice) :
    (statusBits l queue).toNat = (if queue = [] then 0 else 1) + ((if l.noticeOverflow then 2 else 0)
      + (if l.logOverrun then 4 else 0) + (if l.captureDone then 8 else 0) + (if l.deviceAlert then 16 else 0)) := by
  unfold statusBits
  rcases l with ⟨l1, l2, l3, l4⟩
  cases queue <;> cases l1 <;> cases l2 <;> cases l3 <;> cases l4 <;> rfl

theorem attentionDue_eq (a : Access) (queue : List Notice) : attentionDue a queue = enabledSource a queue := by
  unfold attentionDue enabledSource statusBits
  obtain ⟨en⟩ := a.enables
  rcases a.latches with ⟨l1, l2, l3, l4⟩
  cases queue.isEmpty <;> cases l1 <;> cases l2 <;> cases l3 <;> cases l4 <;> simp <;> revert en <;> decide

theorem evaluateAttn_eq (a : Access) (queue : List Notice) : evaluateAttn a queue = attended a queue := by
  unfold evaluateAttn attended
  rw [attentionDue_eq]

theorem placeNotice_eq (s : State) (p : Port) (n : Notice) : placeNotice s p n = withNotice s p n := by
  unfold placeNotice withNotice putPort
  simp only [evaluateAttn_eq]
  cases s.queues.get p <;> simp

theorem raiseLatch_eq (s : State) (p : Port) (l : Latch) :
    putPort s p (raiseLatch (s.ports.get p) (s.queues.get p) l) = withLatch s p l := by
  unfold raiseLatch withLatch
  rcases hl : (s.ports.get p).latches with ⟨l1, l2, l3, l4⟩
  have hs : putPort s p (s.ports.get p) = s := by simp [putPort]
  cases l <;> simp only [latchGet, latched, latchSet, evaluateAttn_eq, Latches.mk.injEq] <;> cases l1 <;> cases l2 <;>
    cases l3 <;> cases l4 <;> simp [hs]

theorem queueHasRoom_iff (s : State) (p : Port) : queueHasRoom s p = true ↔ (s.queues.get p).length < 15 := by
  simp only [queueHasRoom, Config.queueNotices]
  exact decide_eq_true_iff

/-! ### The lock check (R172, R177) -/

theorem holdsLock_iff (s : State) (p : Port) : holdsLock s p = true ↔ Holds s p := by
  unfold holdsLock Holds
  cases h : s.lock.holding with
  | none => simp
  | some x =>
    simp only [beq_iff_eq, Option.some.injEq]
    constructor
    · intro hx
      exact ⟨x.lease, by cases x; simp_all⟩
    · rintro ⟨l, hl⟩
      rw [hl]

theorem holdsLock_taken_false (s : State) (p : Port) (h : ¬Holds s p) : holdsLock (taken s p) p = false := by
  rw [Bool.eq_false_iff]
  exact fun hx => h ((holdsLock_iff s p).mp hx)

/-! ### What waits (R5, R92, R98, R170) -/

/-- A sweep visits its next slot at a step of its own kind, when the starter has had its answer STARTED (R92, R98). -/
theorem mayVisit_iff (kind : SweepKind) (w : Sweep) (s : State) :
    mayVisit kind w s = true ↔ w.kind = kind ∧ StartAnswered s w := by
  simp [mayVisit, startUnanswered, StartAnswered]

theorem firstStageDone_iff (parts : SoftResetParts) : firstStageDone parts = true ↔ FirstStageDone parts := by
  simp only [firstStageDone, FirstStageDone, Bool.and_eq_true, and_assoc]
  have h : (∀ q, parts.ports.get q = true) ↔ parts.ports.ap0 = true ∧ parts.ports.ap1 = true ∧ parts.ports.ap2 = true :=
    ⟨fun h => ⟨h .ap0, h .ap1, h .ap2⟩, fun h q => by cases q <;> simp_all [PerPort.get]⟩
  rw [h]

/-- A soft reset whose Intake part is done, and whose visit is not, keeps frames in the ingest queue (R170). -/
theorem framesHeld_iff (s : State) : framesHeld s = true ↔ ∃ p parts, s.softResets.get p = some parts ∧ parts.intake = true := by
  unfold framesHeld
  rw [List.any_eq_true]
  constructor
  · rintro ⟨p, _, hp⟩
    cases hg : s.softResets.get p with
    | none => simp [hg] at hp
    | some parts => exact ⟨p, parts, hg, by simpa [hg] using hp⟩
  · rintro ⟨p, parts, hg, hp⟩
    exact ⟨p, by cases p <;> decide, by simp [hg, hp]⟩

/-- With frames held, or a frame in the Classifier's hands, FRAME_TAKE takes nothing (R5, R170). -/
theorem takeFrame_waits (u : Upset) (s : State) (h : s.classifier ≠ none ∨ framesHeld s = true) : takeFrame u s = s := by
  unfold takeFrame
  split
  · next hc _ => rcases h with h | h
                 · exact absurd hc h
                 · simp [h]
  · rfl

/-! ### The checks of a request frame (R156, R160) -/

theorem codeKnown_iff (code : Byte) : codeKnown code = true ↔ ∃ c, commandCode c = code := by
  unfold codeKnown
  rw [List.any_eq_true]
  constructor
  · rintro ⟨c, _, h⟩
    exact ⟨c, by simpa using h⟩
  · rintro ⟨c, h⟩
    exact ⟨c, by cases c <;> decide, by simpa using h⟩

theorem lengthGood_iff (len : Byte) : lengthGood len = true ↔ 4 ≤ len.toNat ∧ len.toNat ≤ 72 := by
  simp [lengthGood]

end Sys2Proof.Machine
end

