-- ==== Sys2Proof/Laws/Kept.lean ====
section
/-! SUPPORT. How a property of states passes through the shared operations: a law that the meanings keep is kept by every step. -/

namespace Sys2Proof.Safety

open Sys2Proof.Machine

/-- A law is kept by every step when it does not depend on the queue, the idle microsecond keeps it, and every meaning keeps it. -/
theorem keptByEveryStep_of (law : State → Prop) (hq : ∀ s q, law s → law { s with pending := q })
    (ht : ∀ s, law s → law (tickMicrosecond s)) (he : ∀ c s t, law s → exec c s = .next t → law t) : KeptByEveryStep law := by
  intro s t hl hs
  unfold step at hs
  split at hs
  · simp only [Host.Outcome.next.injEq] at hs
    subst hs
    exact ht s hl
  · exact he _ _ _ (hq _ _ hl) hs

/-- Serving a request keeps what its body keeps and a port's update keeps. -/
theorem serve_keeps (law : State → Prop) (c : Command) (p : Port) (f : List Byte → State → Served) (s : State)
    (hp : ∀ t a, law t → law (putPort t p a)) (hf : ∀ args t, law t → law (f args t).1) (h : law s) : law (serve c p f s) := by
  unfold serve
  split
  · exact h
  · dsimp only
    split
    · exact hf _ _ (hp _ _ h)
    · exact hp _ _ (hf _ _ (hp _ _ h))

theorem underLock_keeps (law : State → Prop) (p : Port) (f : List Byte → State → Served) (args : List Byte) (s : State)
    (hf : ∀ args t, law t → law (f args t).1) (h : law s) : law (underLock p f args s).1 := by
  unfold underLock
  split
  · exact hf _ _ h
  · exact h

theorem noArgs_keeps (law : State → Prop) (f : State → Served) (args : List Byte) (s : State) (hf : ∀ t, law t → law (f t).1)
    (h : law s) : law (noArgs f args s).1 := by
  unfold noArgs
  split
  · exact hf _ h
  · exact h

theorem whenRunning_keeps (law : State → Prop) (f : State → State) (s : State) (hf : ∀ t, law t → law (f t)) (h : law s) :
    law (whenRunning f s) := by
  unfold whenRunning
  split
  · exact hf _ h
  · exact h

end Sys2Proof.Safety
end

