-- ==== Sys2Proof/Laws/Layouts.lean ====
section
/-! SUPPORT. The sets of categories and the byte layouts of Machine/Operands.lean are those that Safety.lean writes out from the
rules. -/

namespace Sys2Proof.Machine

open Sys2Proof.Safety

theorem classificationSet_eq (incs : Nine Nat) : classificationSet incs = categoriesOf incs := rfl

theorem saturationSet_eq (tallies : Nine Nat) :
    saturationSet tallies = categoryBits (fun c => decide (tallies.get c = 4294967295)) := rfl

theorem leBytes_pathNumber (path : PathCode) : leBytes 1 (pathNumber path) = [pathByte path] := by cases path <;> rfl

theorem historyEntryBytes_eq : historyEntryBytes = historyLayout := by
  funext e
  simp only [historyEntryBytes, historyLayout, leBytes_pathNumber]

theorem captureEntryBytes_eq : captureEntryBytes = captureLayout := by
  funext e
  simp only [captureEntryBytes, captureLayout, leBytes_pathNumber]

theorem recordFlags_eq (c : Condition) :
    recordFlags c = (if c.urgent then 1 else 0) + (if c.subject = none then 0 else 2) + (if c.snapshot = none then 0 else 4) := by
  unfold recordFlags
  cases c.subject <;> cases c.snapshot <;> rfl

theorem logRecordBytes_eq : logRecordBytes = recordLayout := by
  funext r
  simp only [logRecordBytes, recordLayout, historyEntryBytes_eq, recordFlags_eq]
  cases r.condition.subject <;> cases r.condition.snapshot <;> rfl

/-- The case of a sequence break, from the offset in the window, the distance from the high mark, and the distance before the base
(R65, R72). -/
theorem windowCase_sequenceBreak (r : Record) (s : Half) :
    windowCase r s = .sequenceBreak ↔
      32 ≤ (s - r.base).toNat ∧ ((r.definition.jump : Int) < (s - r.high).toInt
        ∨ ((s - r.high).toInt ≤ 0 ∧ r.definition.jump < (r.base - s).toNat)) := by
  unfold windowCase withinWindow inAcceptedSet seqDiff
  repeat' split
  all_goals simp_all
  all_goals omega

end Sys2Proof.Machine
end

