-- ==== Sys2Proof/Laws/WatchHits.lean ====
section
/-! SUPPORT. Which hits a watch unit counts, and what a count that uses a unit up says (R142, R143). -/

namespace Sys2Proof.Machine

open Sys2Proof.Safety

theorem unitMatches_iff (w : WatchUnit) (tag : Half) (c : Tally) : unitMatches w tag c = true ↔ UnitFits w tag c := by
  unfold unitMatches UnitFits tagMatches TagFits
  simp only [Bool.and_eq_true, bne_iff_ne, ne_eq]
  apply and_congr_left
  intro _
  have h : (decide (w.low ≤ tag) && decide (tag ≤ w.high)) = decide (w.low.toNat ≤ tag.toNat ∧ tag.toNat ≤ w.high.toNat) := by
    simp [BitVec.le_def]
  rw [h]
  by_cases h : w.low.toNat ≤ tag.toNat ∧ tag.toNat ≤ w.high.toNat <;> cases w.invert <;> simp [h]

theorem tagMatches_iff (low high : Half) (invert : Bool) (tag : Half) :
    tagMatches low high invert tag = true ↔ TagFits low high invert tag := by
  have h := unitMatches_iff { WatchUnit.free with low := low, high := high, invert := invert, mask := BitVec.allOnes 9 } tag .accepted
  have hm : (BitVec.allOnes 9).getLsbD (tallyNumber Tally.accepted) = true := by decide
  simp only [unitMatches, UnitFits, Bool.and_eq_true, hm, and_true] at h
  exact h

theorem unitCounts_iff (units : PerUnit WatchUnit) (u : UnitId) (tag : Half) (c : Tally) :
    unitCounts units u tag c = true ↔ UnitCounts units u tag c := by
  unfold unitCounts UnitCounts
  simp only [Bool.and_eq_true, beq_iff_eq, unitMatches_iff, and_assoc]
  cases hr : (units.get u).role <;> simp [unitMatches_iff]

/-- The category that uses a unit up is one that the unit counts, and nothing remains. -/
theorem countHits_some (units : PerUnit WatchUnit) (u : UnitId) (tag : Half) (incs : Nine Nat) (l : List Tally) (r r' : Nat)
    (c : Tally) (h : countHits units u tag incs l r = (r', some c)) : unitCounts units u tag c = true ∧ r' = 0 := by
  induction l generalizing r with
  | nil => simp [countHits] at h
  | cons x xs ih =>
    simp only [countHits] at h
    by_cases hc : 0 < (if unitCounts units u tag x = true then incs.get x else 0)
        ∧ r ≤ (if unitCounts units u tag x = true then incs.get x else 0)
    · rw [if_pos hc] at h
      have h1 := congrArg Prod.fst h
      have h2 := congrArg Prod.snd h
      simp at h1 h2
      subst h2
      refine ⟨?_, h1.symm⟩
      by_cases hh : unitCounts units u tag x = true
      · exact hh
      · simp [hh] at hc
    · rw [if_neg hc] at h
      exact ih _ h

/-- A unit that a hand-off uses up was ARMED and not the odd unit of a pair. -/
theorem hitsOf_some {units : PerUnit WatchUnit} {u : UnitId} {h : Handoff} {r : Nat} {c : Tally}
    (hh : hitsOf units u h = (r, some c)) : (units.get u).state = .armed ∧ (units.get u).role ≠ .pairOdd ∧ r = 0 := by
  have hc := countHits_some _ _ _ _ _ _ _ _ hh
  have hu := hc.1
  rw [unitCounts_iff] at hu
  refine ⟨hu.1, ?_, hc.2⟩
  rcases hu.2.2 with hr | hr
  · rw [hr]; simp
  · rw [hr.1]; simp

/-- The odd unit of a pair counts nothing. -/
theorem hitsOf_odd {units : PerUnit WatchUnit} {u : UnitId} (h : Handoff) (hr : (units.get u).role = .pairOdd) :
    hitsOf units u h = ((units.get u).remaining, none) := by
  have hn (c : Tally) : unitCounts units u h.tag c = false := by
    rw [Bool.eq_false_iff]
    intro hc
    rw [unitCounts_iff] at hc
    rcases hc.2.2 with hx | hx
    · rw [hr] at hx; cases hx
    · rw [hr] at hx; cases hx.1
  have hl (l : List Tally) (r : Nat) : countHits units u h.tag h.incs l r = (r, none) := by
    induction l generalizing r with
    | nil => rfl
    | cons x xs ih => simp [countHits, hn, ih]
  exact hl _ _

end Sys2Proof.Machine
end

