-- ==== Sys2Proof/Tests/Slice0.lean ====
section
/-! SUPPORT. The model's own tests: the well-formedness checks, single steps of the spec's worked sequences, and for every
obligation that has hypotheses a state that meets them all (the theorems named premises). -/

namespace Sys2Proof.Tests

set_option maxRecDepth 20000

open Sys2Proof.Machine Sys2Proof.Safety

/-! ### Small states -/

/-- Every port IDLE, everything else as after INIT. -/
def idle : State := { State.reset with startup := .running, ports := .all { Access.reset with state := .idle } }

/-- A request in hand at a port, its select period open. -/
def asked (s : State) (p : Port) (code : Byte) (args : List Byte) : State :=
  putPort s p { s.ports.get p with
    state := .executing, select := .open_, request := some { code := code, number := 7, args := args, taken := false } }

/-- The tally lock held by a port with its whole lease. -/
def heldBy (s : State) (p : Port) : State := { s with lock := { s.lock with holding := some { port := p, lease := some 20000 } } }

/-- One slot set in the idle table. -/
def withSlot (n : Nat) (sl : Slot) : State := putSlot idle n sl

/-- The definition of the worked sequences of chapter 04: P 100,000, W 20,000, J 64, DUAL, h 8. -/
def capper : Definition := { period := 100000, lateWindow := 20000, jump := 64, dual := true, silence := 8 }

/-- A slot of tag 410 in a given state, with a record as defined. -/
def slot410 (state : SlotState) : Slot :=
  { state := state, tag := 410, record := .fresh capper (.all .default) 0, parityGood := true }

/-- The record after step 8 of "copies on both ring directions" (chapter 04): B 100, H 104, all accepted. -/
def after104 : Record :=
  { Record.fresh capper (.all .default) 0 with
    base := 100, high := 104, acceptedSet := 0x1f, trackerA := { mark := some 104, stamp := 0 },
    trackerB := { mark := some 104, stamp := 0 }, refSeq := 104, refTick := 400400 }

/-- The slot of tag 410 with that record. -/
def tracked (state : SlotState) : Slot := { slot410 state with record := after104 }

/-- A frame of tag 410. -/
def frame410 (seq : Half) (path : PathCode) (tick : Word) : Frame :=
  { ingress := 1, path := path, tag := 410, seq := seq, tick := tick, length := 64 }

/-- A frame at the front of the ingest queue. -/
def withFrame (s : State) (f : Frame) : State := { s with intake := { s.intake with queue := [.frame f] } }

/-- The Cycle Monitor in a given timebase state, with L 1000, T 20 and a holdover limit of 3 (the worked sequence of 02). -/
def timed (state : Timebase) (run : Nat) : State :=
  { idle with monitor := { idle.monitor with state := state, run := run, holdoverLimit := 3 } }

/-- The next state of an outcome; the reset state for another outcome, which no test expects. -/
def next : Host.Outcome State Fault Refusal → State
  | .next t => t
  | _ => .reset

/-- No upset of the storage. -/
def calm : Upset := { before := false, during := false }

theorem asked_inHand (s : State) (p : Port) (code : Byte) (args : List Byte) : InHand (asked s p code args) p code args := by
  cases p <;> exact ⟨rfl, 7, rfl⟩

theorem heldBy_holds (s : State) (p : Port) (q : Port) (code : Byte) (args : List Byte) : Holds (asked (heldBy s p) q code args) p :=
  ⟨some 20000, rfl⟩

/-! ### WellFormed: an ill-formed term for each check, refused, and a boundary term, accepted -/

theorem test_wf_run : Instr.wellFormed (.descriptorRun []) = false ∧ Instr.wellFormed (.descriptorRun [1]) = true := by decide
theorem test_wf_pulse : Instr.wellFormed (.lineCyclePulse 81919) = false ∧ Instr.wellFormed (.lineCyclePulse 81918) = true := by
  decide
theorem test_wf_reading :
    Instr.wellFormed (.readTimebase .ap0 81919) = false ∧ Instr.wellFormed (.readTimebase .ap0 81918) = true := by decide
theorem test_wf_request :
    Instr.wellFormed (.requestComplete .ap0 (List.replicate 73 0)) = false
      ∧ Instr.wellFormed (.requestComplete .ap0 (List.replicate 72 0)) = true := by decide
theorem test_wf_sent :
    Instr.wellFormed (.selectRelease .ap0 254) = false ∧ Instr.wellFormed (.selectRelease .ap0 253) = true := by decide
theorem test_wf_slots :
    Instr.wellFormed (.softResetVisit .ap0 [512]) = false ∧ Instr.wellFormed (.softResetVisit .ap0 [3, 3]) = false
      ∧ Instr.wellFormed (.softResetVisit .ap0 [3, 511]) = true := by decide

/-! ### No word spells a command -/

theorem test_noWord : decodeTableWord 0 0 = none ∧ (State.reset.withFetchWord 8 1).pending = [] := by decide

/-! ### Command codes (the opcode table of the command book) -/

theorem test_codesDiffer : (allCommands.map commandCode).Nodup ∧ allCommands.length = 46 := by decide
theorem test_codeKnown : codeKnown 0x73 = true ∧ codeKnown 0x74 = false ∧ codeKnown 0x08 = false := by decide

/-! ### Formats (11) -/

/-- The IDENTIFY request of 11: 04h 01h 05h F6h. -/
theorem test_identifyFrame : checkByte [0x04, 0x01, 0x05] = 0xf6 ∧ frameRefusal [0x04, 0x01, 0x05, 0xf6] = none := by decide
/-- The WATCH_FIRED notice word 328,048 of R189 is sent as 70h 01h 05h 00h. -/
theorem test_noticeWord :
    noticeBytes { kind := .watchFired, source := none, word := 328048 } = [5, 3, 0x70, 0x01, 0x05, 0x00] := by decide
/-- The STREAM_SILENT record of 11 is 41 bytes long, its flags 7. -/
theorem test_recordLaidOut :
    logRecordBytes { serial := 1130, condition := (viewRecord 5006 .streamSilent true 3 530
      { Record.fresh capper (.all .default) 0 with history := [{ seq := 9, path := .a, tick := 1, cats := 1 }] } 6) }
    = [0x6a, 4, 0, 0, 0x8e, 0x13, 0, 0, 2, 0, 7, 1, 3, 0, 0x12, 2, 6, 0, 0, 0, 0, 0, 0, 0, 0, 0, 0, 0, 0, 0, 0, 0]
      ++ [9, 0, 0, 1, 0, 0, 0, 1, 0] := by decide

/-! ### Start-up -/

theorem test_release : (next (exec .resetRelease State.reset)).startup = .initializing := by decide
theorem test_initEnd :
    ((next (exec (.initEnd false) (next (exec .resetRelease State.reset)))).ports.get .ap1).state = .idle
      ∧ (next (exec (.initEnd false) (next (exec .resetRelease State.reset)))).startup = .running := by decide

/-! ### The Intake: the worked sequence of 01 -/

/-- The 16 bytes of a FRAME of tag 530, path A. -/
def frameBytes : List Byte := [1, 0, 3, 0, 0x12, 2, 9, 0, 1, 0, 0, 0, 64, 0, 0xaa, 0xbb]
/-- The Intake at a fill, with the worked sequence's counters. -/
def filled (n : Nat) (episode : Option Nat) : State :=
  { idle with intake := { idle.intake with
      queue := List.replicate n (.link .port1 true), episode := episode,
      counters := { idle.intake.counters with received := 1034, admitted := 984, lost := 40, badFrames := 6,
                                              malformedArrival := 4, gapCount := 3 } } }

theorem test_runt : (next (exec (.descriptorRun [1]) idle)).intake.counters.malformedArrival = 1 := by decide
theorem test_badFrame :
    (next (exec (.descriptorRun (frameBytes.set 1 1)) (filled 256 (some 1)))).intake.counters.badFrames = 7 := by decide
theorem test_ingestHigh :
    ((next (exec (.descriptorRun frameBytes) (filled 223 none))).appends.map (·.condition))
      = [bareRecord 0 .ingestHigh false 224] := by decide
theorem test_lossOpens :
    (next (exec (.descriptorRun frameBytes) (filled 256 none))).intake.counters.gapCount = 4
      ∧ (next (exec (.descriptorRun frameBytes) (filled 256 none))).intake.episode = some 1 := by decide
theorem test_lossCloses :
    ((next (exec (.descriptorRun frameBytes) (filled 255 (some 2)))).appends.map (·.condition))
      = [bareRecord 0 .ingestLost true 2] := by decide
theorem test_linkDown :
    let s := { idle with intake := { idle.intake with queue := [.link .port2 false] } }
    (next (exec .linkApply s)).intake.pathB = { up := false, epoch := 1 }
      ∧ (next (exec .linkApply s)).appends.map (·.condition) = [bareRecord 0 .pathDown true 258] := by decide

/-! ### The timebase: the worked sequence of 02 -/

theorem test_firstPulse :
    (next (exec (.lineCyclePulse 0) (timed .unlocked 0))).monitor.state = .acquiring { elapsed := 0, deadline := 1020 } := by
  decide
theorem test_pulse995 :
    let t := next (exec (.lineCyclePulse 995) (timed (.acquiring { elapsed := 0, deadline := 1020 }) 0))
    t.monitor.state = .locked { elapsed := 0, deadline := 1020 } ∧ t.monitor.cycleCount = 1
      ∧ t.appends.map (·.condition) = [bareRecord 1 .timebaseLocked false 0] := by decide
theorem test_pulse600Early :
    let t := next (exec (.lineCyclePulse 600) (timed (.locked { elapsed := 0, deadline := 1020 }) 0))
    t.monitor.earlyMarks = 1 ∧ t.appends.map (·.condition) = [bareRecord 1 .markEarly false 600] := by decide
theorem test_expiryHoldover :
    let t := next (exec .timerExpiry (timed (.locked { elapsed := 1020, deadline := 1020 }) 0))
    t.monitor.state = .holdover { elapsed := 0, deadline := 1000 } ∧ t.monitor.run = 1
      ∧ t.appends.map (·.condition) = [bareRecord 1 .timebaseHoldover true 3] := by decide
theorem test_expiryLost :
    let t := next (exec .timerExpiry (timed (.holdover { elapsed := 1000, deadline := 1000 }) 2))
    t.monitor.state = .unlocked ∧ t.appends.map (·.condition) = [bareRecord 1 .timebaseLost true 1] := by decide
theorem test_pulse10Replaces :
    let t := next (exec (.lineCyclePulse 10) (timed (.holdover { elapsed := 0, deadline := 1000 }) 2))
    t.monitor.cycleCount = 0 ∧ t.appends.map (·.condition) = [bareRecord 0 .timebaseLocked false 258] := by decide
theorem test_pulse280Own :
    let t := next (exec (.lineCyclePulse 280) (timed (.holdover { elapsed := 0, deadline := 1000 }) 2))
    t.monitor.cycleCount = 1 ∧ t.appends.map (·.condition) = [bareRecord 1 .timebaseLocked false 2] := by decide

/-! ### The Classifier: the worked sequences of 04 -/

/-- Step 9: 106 on A, one miss. -/
theorem test_step9 :
    let c := classifyTracked after104 (frame410 106 .a 600200) 0
    c.record.high = 106 ∧ c.record.acceptedSet = 0x5f ∧ c.incs = { Nine.all 0 with accepted := 1, missedA := 1 } := by
  decide
/-- Step 10: 105 on B after A's 106, rescued and late. -/
theorem test_step10 :
    let c := classifyTracked (classifyTracked after104 (frame410 106 .a 600200) 0).record (frame410 105 .b 615000) 0
    c.record.high = 106 ∧ c.incs = { Nine.all 0 with accepted := 1, late := 1, rescued := 1 } := by decide
/-- The record before step c of the second sequence: B 100, H 109. -/
def after109 : Record :=
  { after104 with high := 109, acceptedSet := 0x3ff, trackerA := { mark := some 109, stamp := 0 },
                  trackerB := { mark := some 108, stamp := 0 }, refSeq := 109, refTick := 900000, lastCycle := 7000 }
/-- Step c: 150 slides the window to 119, dropping nine, with 40 misses on A. -/
theorem test_stepc :
    let c := classifyTracked after109 (frame410 150 .a 5000300) 0
    c.record.base = 119 ∧ c.record.high = 150 ∧ c.record.acceptedSet = 0x80000000
      ∧ c.incs = { Nine.all 0 with accepted := 1, dropped := 9, missedA := 40 } := by decide
/-- Step h: 112 is eight before the base, a straggler. -/
theorem test_steph :
    (classifyTracked { after109 with base := 120, high := 151, acceptedSet := 0xc0000000, trackerA := { mark := some 151, stamp := 0 } }
      (frame410 112 .a 5160000) 0).incs = { Nine.all 0 with straggler := 1 } := by decide
/-- A copy exactly half the sequence space from its path's high mark counts as before it, so as REORDERED (log 14). -/
theorem test_half :
    let r : Record := { after104 with acceptedSet := 0x17, trackerB := { mark := some (103 + 0x8000), stamp := 0 } }
    (classifyTracked r (frame410 103 .b 300000) 0).incs = { Nine.all 0 with accepted := 1, reordered := 1 }
      ∧ (classifyTracked r (frame410 103 .b 300000) 0).record.trackerB.mark = some (103 + 0x8000) := by decide
theorem test_acquire :
    let s := withFrame (withSlot 0 (slot410 .defined)) (frame410 100 .a 0)
    let t := next (exec (.frameTake calm) s)
    (slotAt t.table 0).state = .tracking ∧ (slotAt t.table 0).record.tallies.accepted = 1
      ∧ t.appends.map (·.condition.detail) = [100] ∧ t.intake.queue = [] := by decide
/-- The read at the end of an acquiring frame's access fails: FAULTED, STREAM_ACQUIRED stripped, RECORD_FAULT, a bare hand-off. -/
theorem test_acquireFaults :
    let s := withFrame (withSlot 0 (slot410 .defined)) (frame410 100 .a 0)
    let t := next (exec (.frameTake { before := false, during := true }) s)
    (slotAt t.table 0).state = .faulted ∧ (slotAt t.table 0).record.tallies.accepted = 1
      ∧ t.appends.map (·.condition)
          = [slotRecord 0 .streamAcquired false 0 410 100, slotRecord 0 .recordFault true 0 410 1]
      ∧ t.classifier.map (fun h => (h.snapshot, h.history)) = some (none, []) := by decide
theorem test_stray :
    let t := next (exec (.frameTake calm) (withFrame idle (frame410 100 .a 0)))
    t.table.strays = [{ tag := 410, count := 1, firstSeen := 0, lastSeen := 0, lastPath := .a }]
      ∧ t.appends.map (·.condition) = [bareRecord 0 .straySeen false 410] := by decide

/-! ### Silence, sweeps, grades -/

theorem test_silence :
    let s := { withSlot 0 { tracked .tracking with record := after109 } with table :=
      { (withSlot 0 { tracked .tracking with record := after109 }).table with silence := { events := [7008], position := 0 } } }
    let t := next (exec (.silenceCheck calm) s)
    (slotAt t.table 0).state = .stale ∧ t.appends.map (·.condition.detail) = [8] ∧ t.table.silence.position = 1 := by
  decide
/-- The end of CLEAR-TALLIES 0..3 by AP1 (05): detail 263,680, word 3. -/
theorem test_clearEnds :
    let s := { withSlot 3 (tracked .tracking) with
      sweep := some { kind := .clear, first := 0, last := 3, position := 3, starter := .ap1, faults := 0 } }
    let t := next (exec (.clearStep false) s)
    t.sweep = none ∧ t.appends.map (·.condition.detail) = [263680] ∧ t.posted.map (·.notice.word) = [3] := by decide
/-- No slot is visited while AP1 still waits for STARTED (R92). -/
theorem test_clearWaits :
    let s := { withSlot 3 (tracked .tracking) with
      sweep := some { kind := .clear, first := 0, last := 3, position := 3, starter := .ap1, faults := 0 },
      ports := idle.ports.set .ap1 { idle.ports.get .ap1 with state := .executing, answer := some (.bare .started) } }
    (next (exec (.clearStep false) s)).sweep = s.sweep := by decide
theorem test_scrubRepairs :
    let s := { withSlot 3 { Slot.free with parityGood := false } with
      sweep := some { kind := .scrub, first := 3, last := 4, position := 3, starter := .ap1, faults := 0 } }
    let t := next (exec (.scrubStep false) s)
    (slotAt t.table 3).parityGood = true ∧ t.sweep.map (·.faults) = some 1 := by decide
theorem test_markVisit :
    let s := { withSlot 3 { tracked .tracking with record := { after104 with tallies := .all 5 } } with table :=
      { (withSlot 3 { tracked .tracking with record := { after104 with tallies := .all 5 } }).table with
        markWalks := { PerPort.all none with ap1 := some { last := 3, position := 3, marked := 36, faulted := 0 } } } }
    let t := next (exec (.markVisit .ap1 false) s)
    (slotAt t.table 3).record.marks.ap1 = .all 5 ∧ (t.ports.get .ap1).answer = some (.okData [37, 0, 0, 0]) := by
  decide
/-- The second rating of 06: 140, 200, 175, 90. -/
def rated530 : Record :=
  { after104 with
    settings := { loss := { threshold := 150, step := 10, urgent := true }, timing := { threshold := 0, step := 10, urgent := false },
                  order := { threshold := 180, step := 5, urgent := false }, path := { threshold := 100, step := 2, urgent := false } },
    intervals := { loss := 6, timing := 0, order := 5, path := 55 }, intervalsRated := 1 }
theorem test_rating :
    let s := { withSlot 3 { tracked .tracking with record := rated530 } with rating := { idle.rating with sweep := some 3 } }
    let t := next (exec (.ratingStep calm) s)
    gradeList (slotAt t.table 3).record.grades |>.map (·.current) = [140, 200, 175, 90] := by decide
theorem test_ratingRecords :
    let s := { withSlot 3 { tracked .tracking with record := rated530 } with rating := { idle.rating with sweep := some 3 } }
    (next (exec (.ratingStep calm) s)).appends.map (fun a => (a.condition.detail, a.condition.urgent))
      = [(0 + 256 * 140 + 65536 * 150, true), (2 + 256 * 175 + 65536 * 180, false), (3 + 256 * 90 + 65536 * 100, false)] := by
  decide

/-! ### The Condition Log -/

/-- A log of one record with serial 1130 and AP1 holding the lock (the end of the worked sequence of 07). -/
def logged : State :=
  { heldBy idle .ap1 with log := { Log.reset with
      records := [{ serial := 1130, condition := bareRecord 5 .pathDown true 257 }], nextSerial := 1131, cursors := .all 1130 } }
theorem test_append :
    let s := { logged with appends := [appendOf .intake (bareRecord 6 .pathUp false 257)],
                           log := { logged.log with subscriptions := { PerPort.all 0 with ap1 := 2 } } }
    let t := next (exec (.logAppend .intake) s)
    t.log.records.map (·.serial) = [1130, 1131] ∧ t.posted.map (fun n => (n.port, n.notice.word)) = [(.ap1, 1131)] := by
  decide
theorem test_erase :
    let t := next (exec (.eraseLog .ap1) (asked logged .ap1 0x32 []))
    t.log.records.map (fun r => (r.serial, r.condition.detail)) = [(1131, 257)] ∧ t.log.nextSerial = 1132 := by decide
theorem test_seek :
    ((next (exec (.seekLog .ap0) (asked logged .ap0 0x31 [1]))).ports.get .ap0).answer = some (.okData [0x6b, 4, 0, 0]) := by
  decide

/-! ### Watch units: the worked sequence of 08 -/

/-- W0 and W1 after AP2's ARM-WATCH, with ten hits left, and W2 after AP0's, with one left. -/
def watched (capture : Option Capture) : State :=
  { idle with watch := { idle.watch with
      capture := capture,
      units := {
        w0 := { WatchUnit.free with state := .armed, owner := some .ap2, role := .pairEven, low := 500, high := 599, mask := 0x80,
                                    preset := 50, remaining := 10, captureLength := 4 },
        w1 := { WatchUnit.free with state := .armed, owner := some .ap2, role := .pairOdd, low := 530, high := 539, mask := 0x180 },
        w2 := { WatchUnit.free with state := .armed, owner := some .ap0, low := 500, high := 599, invert := true, mask := 2,
                                    preset := 3, remaining := 1, captureLength := 2 },
        w3 := .free } } }
/-- The capture that hand-off 3 starts. -/
def capture531 : Capture :=
  { full := false, owner := .ap2, source := .w0, length := 4, low := 500, high := 599, invert := false,
    entries := [{ slot := 5, tag := 531, seq := 7, path := .a, tick := 1, cats := 0x81 }] }
/-- A hand-off of one frame. -/
def handed (slot : Nat) (tag : Half) (incs : Nine Nat) : Handoff :=
  { slot := slot, tag := tag, seq := 7, path := .a, tick := 1, incs := incs, cycle := 9, snapshot := none, history := [] }
/-- Hand-off 3: the pair fires, the capture starts, detail 368, word 328,048. -/
theorem test_handoff3 :
    let s := { watched none with watch := { (watched none).watch with
      handoffs := [handed 5 531 { Nine.all 0 with accepted := 1, missedA := 12 }] } }
    let t := next (exec .watchHandoff s)
    t.appends.map (·.condition.detail) = [368] ∧ t.posted.map (fun n => (n.port, n.notice.word)) = [(.ap2, 328048)]
      ∧ t.watch.capture = some capture531 ∧ t.watch.units.w1.state = .fired := by decide
/-- Hand-off 4: W2 fires, its capture refused, detail 530, word 131,602. -/
theorem test_handoff4 :
    let s := { watched (some capture531) with watch := { (watched (some capture531)).watch with
      handoffs := [handed 2 412 { Nine.all 0 with accepted := 1, dropped := 1 }] } }
    let t := next (exec .watchHandoff s)
    t.appends.map (·.condition.detail) = [530] ∧ t.posted.map (fun n => (n.port, n.notice.word)) = [(.ap0, 131602)]
      ∧ t.watch.capture = some capture531 := by decide

/-! ### Ports: the worked sequences of 09 and 11 -/

theorem test_request :
    let t := next (exec (.requestComplete .ap1 [0x04, 0x01, 0x05, 0xf6]) idle)
    (t.ports.get .ap1).state = .executing ∧ ((t.ports.get .ap1).request.map (·.code)) = some 1 := by decide
theorem test_identify :
    ((next (exec (.identify .ap1) (asked idle .ap1 1 []))).ports.get .ap1).answer
      = some (.okData [0x20, 0x64, 1, 1, 0, 2, 128, 15, 4, 64, 16, 0, 1]) := by decide
/-- The MARK of request 17 cut short: 17, 18h, OK, CUT. -/
theorem test_cut :
    let s := putPort idle .ap1 { idle.ports.get .ap1 with
      state := .executing, select := .released, answer := some (.okData [37, 0, 0, 0]),
      request := some { code := 0x18, number := 17, args := [0, 0, 255, 1], taken := true } }
    ((next (exec (.blockAnswer .ap1) s)).ports.get .ap1).exchange
      = some { number := 17, code := 0x18, response := 1, delivery := .cut } := by decide
/-- REARM-ATTENTION with CAPTURE_DONE set and enabled stays ASSERTED; with DEVICE_ALERT not enabled goes QUIET. -/
theorem test_rearm :
    let s (l : Latches) := asked (putPort idle .ap2 { idle.ports.get .ap2 with enables := 9, attn := true, latches := l }) .ap2 5 []
    ((next (exec (.rearmAttention .ap2) (s { Latches.clear with captureDone := true }))).ports.get .ap2).attn = true
      ∧ ((next (exec (.rearmAttention .ap2) (s { Latches.clear with deviceAlert := true }))).ports.get .ap2).attn = false := by
  decide
theorem test_dataOut :
    dataOut { Access.reset with state := .idle } 0 = 0xff ∧ dataOut { Access.reset with state := .executing } 0 = 0x00
      ∧ dataOut { Access.reset with state := .executing, select := .refused } 0 = 0xfe
      ∧ dataOut { Access.reset with state := .answering, response := [1, 0, 0xff] } 3 = 0xff
      ∧ dataOut (refuseInInit Access.reset) 0 = 0x10 ∧ dataOut Access.reset 0 = 0xff := by decide

/-! ### The tally lock: the worked sequence of 10 -/

theorem test_release500 :
    let s := { heldBy idle .ap0 with lock := { (heldBy idle .ap0).lock with waiters := [.ap1, .ap2], setting := 500 } }
    let t := next (exec (.releaseLock .ap0) (asked s .ap0 0x61 []))
    t.lock.holding = some { port := .ap1, lease := some 500 } ∧ t.lock.waiters = [.ap2]
      ∧ t.posted.map (fun n => (n.port, n.notice.word)) = [(.ap1, 500)] := by decide
theorem test_expiry66036 :
    let s := { idle with lock := { holding := some { port := .ap1, lease := some 1 }, waiters := [.ap2], setting := 500, events := 1 } }
    let t := next (exec .leaseExpiry s)
    t.lock.holding = some { port := .ap2, lease := some 500 }
      ∧ t.posted.map (fun n => (n.port, n.notice.word)) = [(.ap1, 2), (.ap2, 66036)] := by decide
theorem test_queued :
    let s := { heldBy idle .ap0 with lock := { (heldBy idle .ap0).lock with waiters := [.ap1] } }
    ((next (exec (.claimLock .ap2) (asked s .ap2 0x60 [1]))).ports.get .ap2).answer = some { code := .queued, data := [2] } := by
  decide
theorem test_postAll :
    let t := next (exec (.postNote .ap0) (asked idle .ap0 0x70 [3, 1, 0, 0, 0]))
    (t.ports.get .ap0).answer = some (.okData [2]) ∧ t.queues.ap1 = [{ kind := .note, source := some .ap0, word := 1 }]
      ∧ t.queues.ap0 = [] := by decide

/-! ### The premises of the obligations: start-up, the Intake, the timebase -/

theorem idle_slot (m : Nat) : slotAt idle.table m = .free := by
  by_cases h : m < 512
  · rw [slotAt_lt _ m h]; simp [idle, State.reset, Table.reset]
  · exact slotAt_ge _ m (by omega)

theorem withSlot_slot (n m : Nat) (sl : Slot) (h : n < 512) : slotAt (withSlot n sl).table m = if m = n then sl else .free := by
  rw [show (withSlot n sl).table = setSlot idle.table n sl from rfl, slotAt_setSlot _ n m sl h, idle_slot]

theorem idle_unmapped (tag : Half) : Unmapped idle tag := fun m h => absurd (by rw [idle_slot]; rfl) h

theorem withSlot_unmapped (n : Nat) (sl : Slot) (tag : Half) (h : n < 512) (ht : sl.tag ≠ tag) : Unmapped (withSlot n sl) tag := by
  intro m hm
  rw [withSlot_slot n m sl h] at hm ⊢
  by_cases hmn : m = n
  · simpa [hmn] using ht
  · simp [hmn, Slot.free] at hm

theorem withSlot_mapsTo (n : Nat) (sl : Slot) (tag : Half) (h : n < 512) (hs : sl.state ≠ .free) (ht : sl.tag = tag) :
    MapsTo (withSlot n sl) tag n := by
  refine ⟨h, ?_, ?_, fun m hm _ => ?_⟩
  · rw [withSlot_slot n n sl h]; simpa using hs
  · rw [withSlot_slot n n sl h]; simpa using ht
  · by_cases hmn : m = n
    · exact hmn
    · rw [withSlot_slot n m sl h] at hm; simp [hmn, Slot.free] at hm

theorem test_premises_EmptyQueue : idle.pending = [] := rfl
theorem test_premises_StartUp :
    State.reset.startup = .resetAsserted ∧ (next (exec .resetRelease State.reset)).startup = .initializing
      ∧ State.reset.startup ≠ .running := by decide
theorem test_premises_RejectedRun :
    Running idle ∧ idle.intake.staleRun = false ∧ (frameBytes.drop 1).length ≠ 16 ∧ (0 :: frameBytes).length ≠ 16
      ∧ frameBytes.length = 16 ∧ byteAt (frameBytes.set 0 0) 0 ≠ 1 ∧ byteAt (frameBytes.set 0 3) 0 ≠ 2
      ∧ byteAt (frameBytes.set 1 1) 1 % 2 = 1 ∧ byteAt frameBytes 0 = 1 ∧ byteAt frameBytes 1 % 2 = 0
      ∧ halfAt ((frameBytes.set 4 0).set 5 0) 4 = 0 ∧ halfAt ((frameBytes.set 4 255).set 5 255) 4 = 65535
      ∧ 2 < byteAt (frameBytes.set 3 3) 3 ∧ 31 < byteAt (frameBytes.set 2 32) 2 ∧ halfAt (frameBytes.set 12 0) 12 = 0
      ∧ byteAt (frameBytes.set 0 2) 0 = 2 ∧ byteAt (frameBytes.set 1 0) 1 = 0 ∧ 2 < byteAt (frameBytes.set 1 3) 1
      ∧ 1 < byteAt (frameBytes.set 2 2) 2 := by
  refine ⟨rfl, rfl, ?_⟩; decide
theorem test_premises_GoodRun :
    Running (filled 255 (some 2)) ∧ (filled 255 (some 2)).intake.staleRun = false
      ∧ (filled 255 none).intake.queue.length < 256 ∧ 256 ≤ (filled 256 none).intake.queue.length
      ∧ Carries frameBytes (.frame { ingress := 3, path := .a, tag := 530, seq := 9, tick := 1, length := 64 })
      ∧ Carries (2 :: 1 :: 0 :: List.replicate 13 0) (.link .port1 false)
      ∧ Carries (2 :: 2 :: 1 :: List.replicate 13 0) (.link .port2 true) := by
  simp only [Carries, CarriesFrame, CarriesLink]
  refine ⟨rfl, rfl, ?_⟩; decide
theorem test_premises_LinkChange :
    ∀ (port : RingPort) (up : Bool), Running { idle with intake := { idle.intake with queue := [.link port up] } }
      ∧ idle.classifier = none
      ∧ ({ idle with classifier := some (handed 2 412 (.all 0)) } : State).classifier ≠ none
      ∧ (pathOfPort idle.intake port).up = true
      ∧ (pathOfPort { idle.intake with pathA := { up := false, epoch := 255 }, pathB := { up := false, epoch := 1 } } port).up
          = false := by
  intro port up; cases port <;> exact ⟨rfl, rfl, by decide, rfl, rfl⟩
theorem test_premises_ReadIntake : InHand (asked idle .ap2 0x0a []) .ap2 0x0a [] := asked_inHand ..

/-- The timer after `e` microseconds in ACQUIRING or LOCKED, and in HOLDOVER. -/
def count (e : Nat) : Timer := { elapsed := e, deadline := 1020 }
def held (e : Nat) : Timer := { elapsed := e, deadline := 1000 }

theorem test_premises_PulsesAcquire :
    Running (timed .unlocked 0) ∧ (count 0).elapsed + 979 ≤ (count 0).deadline ∧ (count 0).elapsed + 1020 ≤ (count 0).deadline
      ∧ (count 0).elapsed + 979 < (timed (.acquiring (count 0)) 0).monitor.cycleLength - (timed .unlocked 0).monitor.tolerance
      ∧ (timed .unlocked 0).monitor.cycleLength - (timed .unlocked 0).monitor.tolerance ≤ (count 900).elapsed + 80 := by
  refine ⟨rfl, ?_⟩; decide
theorem test_premises_PulseOnTime :
    let m := (timed (.locked (count 0)) 0).monitor
    Running (timed (.locked (count 0)) 0) ∧ m.state = .locked (count 0) ∧ (count 0).deadline = m.cycleLength + m.tolerance
      ∧ m.cycleLength - m.tolerance ≤ (count 0).elapsed + 980 ∧ (count 0).elapsed + 1020 ≤ m.cycleLength + m.tolerance := by
  refine ⟨rfl, ?_⟩; decide
theorem test_premises_PulsesEarlyOrHoldover :
    let m := (timed (.locked (count 0)) 0).monitor
    let n := (timed (.holdover (held 0)) 2).monitor
    Running (timed (.locked (count 0)) 0) ∧ (count 0).elapsed + 979 ≤ (count 0).deadline ∧ m.state = .locked (count 0)
      ∧ (count 0).elapsed + 979 < m.cycleLength - m.tolerance ∧ n.state = .holdover (held 0)
      ∧ (held 0).elapsed + 1000 ≤ (held 0).deadline ∧ (held 0).elapsed + 20 ≤ n.tolerance ∧ n.tolerance < (held 0).elapsed + 21 := by
  refine ⟨rfl, ?_⟩; decide
theorem test_premises_Expiries :
    Running (timed (.acquiring (count 1020)) 0) ∧ 1 < (timed (.locked (count 1020)) 0).monitor.holdoverLimit
      ∧ ({ (timed (.locked (count 1020)) 0).monitor with holdoverLimit := 1 } : Monitor).holdoverLimit = 1
      ∧ (timed (.holdover (held 1000)) 1).monitor.run + 1 < (timed (.holdover (held 1000)) 1).monitor.holdoverLimit
      ∧ (timed (.holdover (held 1000)) 2).monitor.run + 1 = (timed (.holdover (held 1000)) 2).monitor.holdoverLimit := by
  refine ⟨rfl, ?_⟩; decide
theorem test_premises_TimebaseIsSetAndRead :
    (∀ p args, Holds (asked (heldBy idle p) p 0x0c args) p ∧ InHand (asked (heldBy idle p) p 0x0c args) p 0x0c args)
      ∧ InHand (asked idle .ap0 0x0b []) .ap0 0x0b []
      ∧ (50 ≤ 50 ∧ 1 ≤ 12 ∧ 12 ≤ 50 / 4 ∧ 1 ≤ 1) ∧ ¬(50 ≤ 50 ∧ 1 ≤ 13 ∧ 13 ≤ 50 / 4 ∧ 1 ≤ 1)
      ∧ (leBytes 2 50 ++ leBytes 2 12).length ≠ 5 :=
  ⟨fun _ _ => ⟨heldBy_holds .., asked_inHand ..⟩, asked_inHand .., by decide⟩

/-! ### The premises: the Stream Table -/

/-- The argument bytes of a DEFINE-STREAM of tag 530 with the definition `capper`, and with the settings of grade ORDER. -/
def defineBytes : List Byte := [0x12, 2, 0xa0, 0x86, 1, 0x20, 0x4e, 0, 64, 0, 1, 8, 0]
def defineBytesOrder : List Byte := defineBytes ++ [4, 255, 199, 1]
/-- The settings that those bytes name. -/
def orderNamed : PerGrade (Option GradeSetting) := { PerGrade.all none with order := some { threshold := 255, step := 199, urgent := true } }
/-- A table with no FREE slot, slot n of tag n + 1. -/
def fullTable : Table := mapSlots idle.table (fun n _ => { slot410 .defined with tag := BitVec.ofNat 16 (n + 1) })

theorem fullTable_slot (n : Nat) (h : n < 512) : slotAt fullTable n = { slot410 .defined with tag := BitVec.ofNat 16 (n + 1) } :=
  slotAt_mapSlots idle.table _ n h

theorem test_premises_DefineStream :
    (∀ p args, Holds (asked (heldBy idle p) p 0x10 args) p ∧ InHand (asked (heldBy idle p) p 0x10 args) p 0x10 args)
      ∧ defineArgs (defineBytes.drop 1) = none ∧ defineArgs (defineBytes.set 8 0 |>.set 9 0) = none
      ∧ defineArgs defineBytes = some (530, capper, .all none) ∧ defineArgs defineBytesOrder = some (530, capper, orderNamed)
      ∧ Unmapped idle 530 ∧ (slotAt idle.table 0).state = .free
      ∧ ¬Unmapped (withSlot 0 { slot410 .faulted with tag := 530 }) 530
      ∧ Unmapped (withSlot 0 (slot410 .stale)) 530
      ∧ (slotAt (withSlot 0 (slot410 .stale)).table 0).state ≠ .free ∧ (slotAt (withSlot 0 (slot410 .stale)).table 1).state = .free := by
  refine ⟨fun _ _ => ⟨heldBy_holds .., asked_inHand ..⟩, by decide, by decide, by decide, by decide, idle_unmapped _,
    by rw [idle_slot]; rfl, fun h => h 0 ?_ ?_, withSlot_unmapped 0 _ _ (by decide) (by decide), ?_, ?_⟩ <;>
    rw [withSlot_slot _ _ _ (by decide)] <;> decide
theorem test_premises_DefineStream_full :
    Unmapped { idle with table := fullTable } 60000 ∧ ∀ n, n < 512 → (slotAt fullTable n).state ≠ .free := by
  refine ⟨fun n hn ht => ?_, fun n hn => by rw [fullTable_slot n hn]; intro h; cases h⟩
  have h := lt_of_slotAt_ne_free _ n hn
  rw [show ({ idle with table := fullTable } : State).table = fullTable from rfl, fullTable_slot n h] at ht
  have := congrArg BitVec.toNat ht
  simp at this; omega
theorem test_premises_RedefinedAndRetired :
    (∀ p code args, Holds (asked (heldBy (withSlot 511 (slot410 .stale)) p) p code args) p
        ∧ InHand (asked (heldBy (withSlot 511 (slot410 .stale)) p) p code args) p code args)
      ∧ redefineArgs ([255, 1] ++ defineBytes.drop 2) = some (511, capper, .all none)
      ∧ redefineArgs ([255, 1] ++ (defineBytes.drop 2).set 8 0) = some (511, { capper with dual := false }, .all none)
      ∧ redefineArgs ([0, 2] ++ defineBytes.drop 2) = none ∧ Readable (withSlot 511 (slot410 .stale)) 511
      ∧ (slotAt (withSlot 511 (slot410 .stale)).table 0).state = .free
      ∧ (slotAt (withSlot 511 (slot410 .stale)).table 511).state ≠ .free ∧ 511 < halfAt [0, 2] 0 := by
  refine ⟨fun _ _ _ => ⟨heldBy_holds .., asked_inHand ..⟩, by decide, by decide, by decide, ⟨?_, ?_⟩, ?_, ?_, by decide⟩ <;>
    rw [withSlot_slot _ _ _ (by decide)] <;> decide
theorem test_premises_DefinitionAndGrades :
    Readable (withSlot 511 (slot410 .defined)) 511 ∧ ∀ s p code args, InHand (asked s p code args) p code args := by
  refine ⟨⟨?_, ?_⟩, fun _ _ _ _ => asked_inHand ..⟩ <;> rw [withSlot_slot _ _ _ (by decide)] <;> decide
theorem test_premises_WindowAndSheet :
    Readable (withSlot 0 (slot410 .defined)) 0 ∧ (slotAt (withSlot 0 (slot410 .defined)).table 0).state = .defined
      ∧ Readable (withSlot 0 (tracked .stale)) 0 ∧ (slotAt (withSlot 0 (tracked .stale)).table 0).state ≠ .defined := by
  refine ⟨⟨?_, ?_⟩, ?_, ⟨?_, ?_⟩, ?_⟩ <;> rw [withSlot_slot _ _ _ (by decide)] <;> decide
theorem test_premises_SlotCommands :
    NamesSlot (asked (withSlot 3 (slot410 .defined)) .ap0 0x13 (leBytes 2 3)) .ap0 3 true (.readDefinition .ap0 true)
      ∧ NamesSlot (asked idle .ap0 0x17 (leBytes 2 511)) .ap0 511 false (.readWindow .ap0 false)
      ∧ NamesSlot (asked idle .ap0 0x19 (leBytes 2 3 ++ leBytes 1 1)) .ap0 3 false (.readSheet .ap0 false)
      ∧ NamesSlot (asked idle .ap0 0x22 (leBytes 2 3)) .ap0 3 false (.readGrades .ap0 false)
      ∧ NamesSlot (asked (heldBy idle .ap0) .ap0 0x11 ([3, 0] ++ defineBytes.drop 2)) .ap0 3 false (.redefineStream .ap0 false)
      ∧ NamesSlot (asked (heldBy idle .ap0) .ap0 0x20 [3, 0, 4, 255, 199, 1]) .ap0 3 false (.setGrading .ap0 false)
      ∧ (slotAt idle.table 3).state = .free ∧ (slotAt (withSlot 3 (slot410 .faulted)).table 3).state = .faulted
      ∧ ParityFails (withSlot 3 (slot410 .defined)) 3 true
      ∧ ParityFails (withSlot 3 { slot410 .defined with parityGood := false }) 3 false := by
  refine ⟨⟨by decide, .inr (.inl ⟨rfl, asked_inHand ..⟩)⟩, ⟨by decide, .inr (.inr (.inl ⟨rfl, asked_inHand ..⟩))⟩,
    ⟨by decide, .inr (.inr (.inr (.inl ⟨rfl, 1, by decide, asked_inHand ..⟩)))⟩,
    ⟨by decide, .inr (.inr (.inr (.inr (.inr ⟨rfl, asked_inHand ..⟩))))⟩,
    ⟨by decide, .inl ⟨rfl, heldBy_holds .., _, capper, .all none, asked_inHand .., by decide⟩⟩,
    ⟨by decide, .inr (.inr (.inr (.inr (.inl ⟨rfl, heldBy_holds .., _, orderNamed, asked_inHand .., by decide⟩))))⟩,
    by rw [idle_slot]; rfl, ?_, ⟨?_, ?_⟩, ⟨?_, ?_⟩⟩ <;> rw [withSlot_slot _ _ _ (by decide)] <;> decide
theorem test_premises_TableIsListed :
    (∀ s p code args, InHand (asked s p code args) p code args) ∧ Holds (asked (heldBy idle .ap1) .ap1 0x16 []) .ap1
      ∧ (1 ≤ 12 ∧ 511 < halfAt [0, 2, 1] 0 ∧ byteAt [0, 0, 0] 2 = 0 ∧ 12 < byteAt [0, 0, 13] 2)
      ∧ (15 < byteAt [16, 1] 0 ∧ byteAt [0, 0] 1 = 0 ∧ 4 < byteAt [0, 5] 1) :=
  ⟨fun _ _ _ _ => asked_inHand .., heldBy_holds .., by decide, by decide⟩

/-- A table with a silence walk at slot 511 that holds a slot of chapter 04's stream. -/
def walking (sl : Slot) (count : Word) : State :=
  { withSlot 511 sl with table := { (withSlot 511 sl).table with silence := { events := [count], position := 511 } } }

theorem walking_slot (sl : Slot) (count : Word) : slotAt (walking sl count).table 511 = sl :=
  (withSlot_slot 511 511 sl (by decide)).trans rfl

theorem test_premises_SilenceCheck :
    Running (walking (slot410 .defined) 7) ∧ (walking (slot410 .defined) 7).table.silence = { events := 7 :: [], position := 511 }
      ∧ (slotAt (walking (slot410 .defined) 7).table 511).state ≠ .tracking
      ∧ (slotAt (walking (slot410 .tracking) 7).table 511).state = .tracking
      ∧ (slotAt (walking (slot410 .tracking) 7).table 511).parityGood = true
      ∧ (7 - (slot410 .tracking).record.lastCycle).toNat < (slot410 .tracking).record.definition.silence
      ∧ (slot410 .tracking).record.definition.silence ≤ (8 - (slot410 .tracking).record.lastCycle).toNat := by
  simp only [walking_slot]
  exact ⟨rfl, rfl, by decide, by decide, by decide, by decide, by decide⟩

/-- A frame may be taken from a state whose queue it heads. -/
theorem frameReady (s : State) (f : Frame) (hr : s.startup = .running) (hc : s.classifier = none)
    (hs : s.softResets = .all none) : FrameReady (withFrame s f) f [] :=
  ⟨hr, hc, rfl, fun p parts h => by
    rw [show (withFrame s f).softResets = s.softResets from rfl, hs] at h; cases p <;> cases h⟩

theorem test_premises_StrayFrame :
    FrameReady (withFrame idle (frame410 9 .a 0)) (frame410 9 .a 0) []
      ∧ Unmapped (withFrame idle (frame410 9 .a 0)) (frame410 9 .a 0).tag
      ∧ (∀ x ∈ idle.table.strays, x.tag ≠ 410)
      ∧ ∃ before after : List Stray, ∃ e : Stray, [e] = before ++ e :: after ∧ e.tag = 410 ∧ ∀ x ∈ before ++ after, x.tag ≠ 410 :=
  ⟨frameReady _ _ rfl rfl rfl, idle_unmapped _, (by intro x h; cases h), [], [],
    { tag := 410, count := 65535, firstSeen := 0, lastSeen := 0, lastPath := .b }, rfl, rfl, (by intro x h; cases h)⟩

/-! ### The premises: classification -/

theorem test_premises_Unusable :
    FrameReady (withFrame (withSlot 0 (slot410 .faulted)) (frame410 9 .none 0)) (frame410 9 .none 0) []
      ∧ (∀ state, state ≠ .free → MapsTo (withSlot 0 (slot410 state)) 410 0)
      ∧ (slotAt (withSlot 0 (slot410 .faulted)).table 0).state = .faulted ∧ ({ calm with before := true } : Upset).before = true
      ∧ ParityFails (withSlot 0 (slot410 .tracking)) 0 true ∧ Readable (withSlot 0 (slot410 .tracking)) 0
      ∧ (slot410 .tracking).record.definition.dual = true ∧ (frame410 9 .none 0).path = .none := by
  refine ⟨frameReady _ _ rfl rfl rfl, fun st h => withSlot_mapsTo 0 _ _ (by decide) h rfl, ?_, rfl, ⟨?_, ?_⟩, ⟨?_, ?_⟩, rfl, rfl⟩ <;>
    rw [withSlot_slot _ _ _ (by decide)] <;> decide
theorem slot410_accounts : AccountsOk (slot410 .defined).record := by
  refine ⟨fun c => ?_, fun p c => ?_, fun g => ?_, fun g => ?_, by decide, by decide⟩
  · cases c <;> decide
  · cases p <;> cases c <;> decide
  · cases g <;> decide
  · cases g <;> decide
theorem test_premises_DefinedStreamAcquires :
    let s := withFrame (withSlot 0 (slot410 .defined)) (frame410 100 .b 5)
    FrameReady s (frame410 100 .b 5) [] ∧ MapsTo s (frame410 100 .b 5).tag 0 ∧ (slotAt s.table 0).state = .defined
      ∧ (slotAt s.table 0).parityGood = true
      ∧ ¬((slotAt s.table 0).record.definition.dual = true ∧ (frame410 100 .b 5).path = .none)
      ∧ AccountsOk (slotAt s.table 0).record := by
  have h : slotAt (withFrame (withSlot 0 (slot410 .defined)) (frame410 100 .b 5)).table 0 = slot410 .defined :=
    (withSlot_slot 0 0 _ (by decide)).trans rfl
  exact ⟨frameReady _ _ rfl rfl rfl, withSlot_mapsTo 0 _ _ (by decide) (by decide) rfl, h ▸ rfl, h ▸ rfl,
    fun hn => absurd hn.2 (by decide), h ▸ slot410_accounts⟩
theorem test_premises_TrackedStream :
    let s (st : SlotState) := withFrame (withSlot 0 (tracked st)) (frame410 106 .a 600200)
    FrameReady (s .stale) (frame410 106 .a 600200) [] ∧ MapsTo (s .stale) (frame410 106 .a 600200).tag 0
      ∧ ((slotAt (s .tracking).table 0).state = .tracking ∧ (slotAt (s .stale).table 0).state = .stale)
      ∧ (slotAt (s .stale).table 0).parityGood = true
      ∧ ¬((slotAt (s .stale).table 0).record.definition.dual = true ∧ (frame410 106 .a 600200).path = .none) := by
  have h (st : SlotState) : slotAt (withFrame (withSlot 0 (tracked st)) (frame410 106 .a 600200)).table 0 = tracked st :=
    (withSlot_slot 0 0 _ (by decide)).trans rfl
  exact ⟨frameReady _ _ rfl rfl rfl, withSlot_mapsTo 0 _ _ (by decide) (by decide) rfl, ⟨(h .tracking) ▸ rfl, (h .stale) ▸ rfl⟩,
    (h .stale) ▸ rfl, fun hn => absurd hn.2 (by decide)⟩
/-- Each clause has a frame: a duplicate of 104, 131 in the window, 105 before a later high mark, 132 and 168 that slide, 68 and
36 behind, 169 and 35 that break. -/
theorem test_premises_WindowJudges :
    let r := after104
    (((104 : Half) - r.base).toNat < 32 ∧ r.acceptedSet.getLsbD ((104 : Half) - r.base).toNat = true)
      ∧ (((131 : Half) - r.base).toNat < 32 ∧ r.acceptedSet.getLsbD ((131 : Half) - r.base).toNat = false
          ∧ 0 < ((131 : Half) - r.high).toInt)
      ∧ ((({ r with acceptedSet := 0x1d } : Record).acceptedSet.getLsbD ((101 : Half) - r.base).toNat = false)
          ∧ ((101 : Half) - r.high).toInt ≤ 0)
      ∧ (32 ≤ ((132 : Half) - r.base).toNat ∧ 0 < ((168 : Half) - r.high).toInt ∧ ((168 : Half) - r.high).toInt ≤ r.definition.jump)
      ∧ (32 ≤ ((99 : Half) - r.base).toNat ∧ ((36 : Half) - r.high).toInt ≤ 0 ∧ (r.base - (36 : Half)).toNat ≤ r.definition.jump)
      ∧ (32 ≤ ((169 : Half) - r.base).toNat ∧ (r.definition.jump : Int) < ((169 : Half) - r.high).toInt)
      ∧ (32 ≤ ((35 : Half) - r.base).toNat ∧ ((35 : Half) - r.high).toInt ≤ 0 ∧ r.definition.jump < (r.base - (35 : Half)).toNat) := by
  decide
theorem after104_window : WindowOk after104 := by
  refine ⟨by decide, by decide, fun i h => ?_⟩
  have h5 : 5 ≤ i := h
  by_cases hi : i < 32
  · exact (by decide : ∀ i : Fin 32, 5 ≤ i.val → after104.acceptedSet.getLsbD i.val = false) ⟨i, hi⟩ h5
  · exact BitVec.getLsbD_of_ge _ i (by omega)
theorem test_premises_Slide :
    WindowOk after104 ∧ 32 ≤ after104.definition.jump ∧ 32 ≤ ((168 : Half) - after104.base).toNat
      ∧ 0 < ((168 : Half) - after104.high).toInt ∧ ((168 : Half) - after104.high).toInt ≤ after104.definition.jump :=
  ⟨after104_window, by decide⟩

/-! ### The premises: marks, sweeps, grades -/

/-- A MARK walk of AP0 that has reached slot 3 of 0..3, and a sweep that has, over a table whose slot 3 is given. -/
def marking (sl : Slot) : State :=
  { withSlot 3 sl with table := { (withSlot 3 sl).table with
      markWalks := { PerPort.all none with ap0 := some { last := 3, position := 3, marked := 0, faulted := 0 } } } }
def sweeping (kind : SweepKind) (sl : Slot) : State :=
  { withSlot 3 sl with sweep := some { kind := kind, first := 0, last := 3, position := 3, starter := .ap1, faults := 0 } }

theorem marking_slot (sl : Slot) : slotAt (marking sl).table 3 = sl := (withSlot_slot 3 3 sl (by decide)).trans rfl
theorem sweeping_slot (kind : SweepKind) (sl : Slot) : slotAt (sweeping kind sl).table 3 = sl :=
  (withSlot_slot 3 3 sl (by decide)).trans rfl

theorem test_premises_MarkWalks :
    InHand (asked idle .ap0 0x18 (leBytes 2 0 ++ leBytes 2 511)) .ap0 0x18 (leBytes 2 0 ++ leBytes 2 511)
      ∧ (halfAt [1, 0, 0, 0] 2 < halfAt [1, 0, 0, 0] 0 ∧ 511 < halfAt [0, 0, 0, 2] 2)
      ∧ (∀ sl, Running (marking sl) ∧ (marking sl).table.markWalks.get .ap0 = some { last := 3, position := 3, marked := 0, faulted := 0 })
      ∧ (slotAt (marking .free).table 3).state = .free ∧ (slotAt (marking (slot410 .faulted)).table 3).state = .faulted
      ∧ Readable (marking (slot410 .stale)) 3 ∧ ParityFails (marking (slot410 .stale)) 3 true := by
  simp only [Readable, ParityFails, marking_slot]
  exact ⟨asked_inHand .., by decide, fun _ => ⟨rfl, rfl⟩, by decide, by decide, by decide, by decide⟩
theorem test_premises_SweepsStarted :
    (∀ code args, Holds (asked (heldBy idle .ap0) .ap0 code args) .ap0) ∧ (asked idle .ap0 0x1a []).sweep = none
      ∧ (asked (sweeping .clear .free) .ap0 0x1c []).sweep
          = some { kind := .clear, first := 0, last := 3, position := 3, starter := .ap1, faults := 0 }
      ∧ ¬Holds (asked (sweeping .clear .free) .ap0 0x1c []) .ap0 ∧ Port.ap1 ≠ .ap0 :=
  ⟨fun _ _ => heldBy_holds .., rfl, rfl, fun ⟨_, h⟩ => (by cases h), by decide⟩
theorem test_premises_SweepSteps :
    (∀ kind sl, Running (sweeping kind sl) ∧ (sweeping kind sl).sweep
          = some { kind := kind, first := 0, last := 3, position := 3, starter := .ap1, faults := 0 }
        ∧ StartAnswered (sweeping kind sl) { kind := kind, first := 0, last := 3, position := 3, starter := .ap1, faults := 0 })
      ∧ (let waiting := putPort (sweeping .clear .free) .ap1
            { idle.ports.get .ap1 with state := .executing, answer := some (.bare .started) }
         ¬StartAnswered waiting { kind := .clear, first := 0, last := 3, position := 3, starter := .ap1, faults := 0 })
      ∧ (slotAt (sweeping .clear .free).table 3).state = .free ∧ (slotAt (sweeping .clear (slot410 .faulted)).table 3).state = .faulted
      ∧ Readable (sweeping .clear (slot410 .stale)) 3 ∧ ParityFails (sweeping .scrub (slot410 .stale)) 3 true
      ∧ ((slotAt (sweeping .scrub { Slot.free with parityGood := false }).table 3).parityGood && !false) = false := by
  simp only [Readable, ParityFails, StartAnswered, sweeping_slot]
  exact ⟨fun _ _ => ⟨rfl, rfl, (by intro h; cases h)⟩, fun h => h rfl, by decide, by decide, by decide, by decide, by decide⟩

/-- The Rating Unit with one cycle event to take and a count of cycles, and with a rating sweep at slot 3. -/
def ratingAt (since : Nat) : State := { idle with rating := { idle.rating with since := since, events := 1 } }
def ratingSlot (sl : Slot) : State := { withSlot 3 sl with rating := { idle.rating with sweep := some 3 } }

theorem ratingSlot_slot (sl : Slot) : slotAt (ratingSlot sl).table 3 = sl := (withSlot_slot 3 3 sl (by decide)).trans rfl

theorem test_premises_RatingFallsDue :
    Running (ratingAt 1998) ∧ (ratingAt 1998).rating.events = 0 + 1
      ∧ (ratingAt 1998).rating.since + 1 < (ratingAt 1998).rating.interval
      ∧ (ratingAt 1999).rating.interval ≤ (ratingAt 1999).rating.since + 1 := ⟨rfl, rfl, by decide, by decide⟩
theorem test_premises_RatingStep :
    (∀ sl, Running (ratingSlot sl) ∧ (ratingSlot sl).rating.sweep = some 3)
      ∧ ((slotAt (ratingSlot (slot410 .defined)).table 3).state ≠ .tracking
          ∧ (slotAt (ratingSlot (slot410 .defined)).table 3).state ≠ .stale)
      ∧ ((slotAt (ratingSlot (slot410 .stale)).table 3).state = .stale
          ∧ (slotAt (ratingSlot (slot410 .stale)).table 3).parityGood = true)
      ∧ ((slotAt (ratingSlot { slot410 .tracking with parityGood := false }).table 3).parityGood && !false) = false := by
  simp only [ratingSlot_slot]
  exact ⟨fun _ => ⟨rfl, rfl⟩, by decide, by decide, by decide⟩
theorem test_premises_GradingAndRating :
    (∀ s p code args, Holds (asked (heldBy s p) p code args) p ∧ InHand (asked (heldBy s p) p code args) p code args)
      ∧ gradingArgs [3, 0, 4, 255, 199, 1] = some (3, orderNamed) ∧ gradingArgs [3, 0, 0] = some (3, .all none)
      ∧ Readable (asked (heldBy (withSlot 3 (slot410 .stale)) .ap0) .ap0 0x20 [3, 0, 0]) 3
      ∧ gradingArgs [3, 0] = none ∧ gradingArgs [3, 0, 4, 201, 0, 0] = none ∧ gradingArgs [3, 0, 4, 200, 200, 0] = none
      ∧ gradingArgs [3, 0, 16] = none ∧ halfAt [0, 0] 0 = 0 := by
  have h : slotAt (asked (heldBy (withSlot 3 (slot410 .stale)) .ap0) .ap0 0x20 [3, 0, 0]).table 3 = slot410 .stale :=
    (withSlot_slot 3 3 _ (by decide)).trans rfl
  simp only [Readable, h]
  exact ⟨fun _ _ _ _ => ⟨heldBy_holds .., asked_inHand ..⟩, by decide, by decide, by decide, by decide, by decide, by decide,
    by decide, by decide⟩
theorem test_premises_ReadRating : (∀ args, InHand (asked idle .ap0 0x23 args) .ap0 0x23 args) ∧ [0] ≠ ([] : List Byte) :=
  ⟨fun _ => asked_inHand .., by decide⟩

/-! ### The premises: the Condition Log -/

/-- A full log of serials 1001 to 1128 with AP0's cursor on the oldest (07), and two appends of one access waiting. -/
def fullLog : Log :=
  { Log.reset with
    records := (List.range 128).map (fun i => { serial := 1001 + i, condition := bareRecord 1 .pathUp false 1 }),
    nextSerial := 1129, cursors := { ap0 := 1001, ap1 := 1129, ap2 := 1100 } }
def waiting : List Append :=
  [appendOf .intake (bareRecord 1 .pathDown true 257),
   { source := .classifier, condition := bareRecord 1 .sequenceBreak true 0, last := false, holds := none },
   appendOf .classifier (bareRecord 1 .streamResumed false 9)]

theorem test_premises_LogAppend :
    Running { idle with log := fullLog, appends := waiting } ∧ fullLog.midAccess = none
      ∧ (∃ a before after, waiting = before ++ a :: after ∧ a.source = .classifier ∧ ∀ x ∈ before, x.source ≠ .classifier)
      ∧ 128 ≤ fullLog.records.length ∧ (fullLog.records.head?).map (·.serial) = some (fullLog.cursors.get .ap0)
      ∧ ({ fullLog with midAccess := some .classifier } : Log).midAccess = some .classifier :=
  ⟨rfl, rfl, ⟨_, [waiting.head (by decide)], _, rfl, rfl, by decide⟩, by decide, by decide, rfl⟩
theorem test_premises_LogIsRead :
    let older := (fullLog.records).take 99
    let unread := (fullLog.records).drop 99
    fullLog.records = older ++ unread ∧ (∀ r ∈ older, r.serial ≠ fullLog.cursors.get .ap2)
      ∧ (∃ r later, unread = r :: later ∧ r.serial = fullLog.cursors.get .ap2 ∧ fullLog.cursors.get .ap2 ≠ fullLog.nextSerial)
      ∧ unread = unread.take 4 ++ unread.drop 4 ∧ (unread.take 4).getLast? = some { serial := 1103, condition := bareRecord 1 .pathUp false 1 }
      ∧ ((unread.take 4).map (fun r => 32 + 9 * r.condition.leadIn.length)).sum ≤ 248 ∧ (unread.take 4).length = 4
      ∧ fullLog.records = fullLog.records ++ [] ∧ (∀ r ∈ fullLog.records, r.serial ≠ fullLog.cursors.get .ap1)
      ∧ fullLog.cursors.get .ap1 = fullLog.nextSerial := by
  refine ⟨rfl, by decide, ⟨_, _, rfl, rfl, by decide⟩, rfl, by decide, by decide, by decide, by decide, by decide, by decide⟩
theorem test_premises_LogErased :
    Holds (asked logged .ap1 0x32 []) .ap1 ∧ (asked logged .ap1 0x32 []).log.midAccess = none
      ∧ InHand (asked logged .ap1 0x32 []) .ap1 0x32 []
      ∧ ({ logged with log := { logged.log with midAccess := some .classifier } } : State).log.midAccess ≠ none
      ∧ InHand (asked logged .ap0 0x33 (leBytes 1 (63 : BitVec 6).toNat)) .ap0 0x33 (leBytes 1 (63 : BitVec 6).toNat)
      ∧ 63 < byteAt [64] 0 :=
  ⟨⟨some 20000, rfl⟩, rfl, asked_inHand .., by decide, asked_inHand .., by decide⟩

/-! ### The premises: watch units -/

/-- The argument bytes of AP2's ARM-WATCH for W0 with the pair flag (08), and without it. -/
def armPair : List Byte := [0, 244, 1, 87, 2, 0, 0x80, 0, 50, 0, 4, 1, 18, 2, 27, 2, 0, 0x80, 1]
def armAlone : List Byte := [0, 244, 1, 87, 2, 0, 0x80, 0, 50, 0, 4, 0]
/-- What they say. -/
def ownMatching : Matching := { low := 500, high := 599, invert := false, mask := 0x80 }
def partnerMatching : Matching := { low := 530, high := 539, invert := false, mask := 0x180 }

theorem test_premises_WatchCommands :
    (∀ s p code args, InHand (asked s p code args) p code args)
      ∧ armArgs armPair = some { unit := .w0, own := ownMatching, preset := 50, captureLength := 4, partner := some partnerMatching }
      ∧ armArgs armAlone = some { unit := .w0, own := ownMatching, preset := 50, captureLength := 4, partner := none }
      ∧ armArgs (armPair.set 0 1) = none ∧ armArgs (armAlone.set 10 65) = none ∧ armArgs (armAlone.set 8 0) = none
      ∧ ((watched none).watch.units.get .w3).state = .free ∧ ((watched none).watch.units.get .w0).owner = some .ap2
      ∧ ((watched none).watch.units.get .w0).role ≠ .pairOdd ∧ ((watched none).watch.units.get .w1).role = .pairOdd
      ∧ ((watched none).watch.units.get .w2).owner ≠ some .ap2 ∧ ((watched none).watch.units.get .w2).state = .armed
      ∧ (watched none).watch.capture = none ∧ (watched (some capture531)).watch.capture = some capture531
      ∧ capture531.owner ≠ .ap0 ∧ capture531.owner = .ap2 :=
  ⟨fun _ _ _ _ => asked_inHand .., by decide, by decide, by decide, by decide, by decide, by decide, by decide, by decide, by decide,
    by decide, by decide, rfl, rfl, by decide, by decide⟩

/-- What each category counts for W2 at hand-off 4: its DROPPED alone. -/
def dropsOnly (n : Nat) : Tally → Nat
  | .dropped => n
  | _ => 0

theorem test_premises_Hits :
    let units := (watched none).watch.units
    let h := handed 2 412 { Nine.all 0 with accepted := 1, dropped := 1 }
    (∀ c, UnitCounts units .w2 h.tag c → dropsOnly 1 c = h.incs.get c) ∧ (∀ c, ¬UnitCounts units .w2 h.tag c → dropsOnly 1 c = 0)
      ∧ ((allTallies.map (dropsOnly 1)).sum < 2 ∧ ([Tally.accepted].map (dropsOnly 1)).sum < (units.get .w2).remaining
          ∧ (units.get .w2).remaining ≤ ([Tally.accepted].map (dropsOnly 1)).sum + dropsOnly 1 .dropped)
      ∧ ((units.get .w3).state ≠ .armed ∧ (units.get .w1).role = .pairOdd) := by
  refine ⟨fun c => ?_, fun c => ?_, by decide, by decide⟩ <;> cases c <;> simp only [UnitCounts, UnitFits, TagFits] <;> decide
/-- A lawful watch block: W2 of the worked sequence, armed, and a FILLING capture that W0 started alone. -/
def lawfulUnits : PerUnit WatchUnit :=
  { PerUnit.all WatchUnit.free with
    w0 := { WatchUnit.free with state := .fired, owner := some .ap2, low := 500, high := 599, mask := 0x80, preset := 50,
                                captureLength := 4, firing := some { category := .missedA, slot := 5, tag := 531, cycle := 9 } },
    w2 := (watched none).watch.units.w2 }
def lawfulWatch (capture : Option Capture) : State :=
  { idle with watch := {
      units := lawfulUnits, capture := capture, handoffs := [handed 2 412 { Nine.all 0 with accepted := 1, dropped := 1 }] } }
theorem test_premises_Handoff :
    Running (lawfulWatch (some capture531)) ∧ WatchLaw (lawfulWatch (some capture531)) ∧ WatchLaw (lawfulWatch none)
      ∧ (lawfulWatch (some capture531)).watch.handoffs = handed 2 412 { Nine.all 0 with accepted := 1, dropped := 1 } :: []
      ∧ capture531.full = false ∧ ¬TagFits capture531.low capture531.high capture531.invert 412
      ∧ TagFits capture531.low capture531.high capture531.invert 599
      ∧ capture531.entries.length + 1 < capture531.length ∧ ({ capture531 with length := 2 } : Capture).length ≤ capture531.entries.length + 1 := by
  have hu (u : UnitId) : UnitOk lawfulUnits u := by cases u <;> (simp only [UnitOk]; decide)
  refine ⟨rfl, ⟨hu, fun c h => ?_⟩, ⟨hu, fun c h => by cases h⟩, rfl, rfl, ?_, ?_, by decide, by decide⟩
  · cases h; simp only [CaptureOk]; decide
  · simp only [TagFits]; decide
  · simp only [TagFits]; decide

/-! ### The premises: the tally lock, the notice queues, the ports -/

/-- AP0 holds the lock with a lease remaining, AP1 and AP2 wait, and a cycle event is to be taken. -/
def leased (lease : Option Nat) (waiters : List Port) : State :=
  { idle with lock := { holding := some { port := .ap0, lease := lease }, waiters := waiters, setting := 500, events := 1 } }

theorem test_premises_LockCommands :
    (∀ s p code args, InHand (asked s p code args) p code args) ∧ idle.lock.holding = none
      ∧ Holds (leased none [.ap1]) .ap0 ∧ ¬Holds (leased none [.ap1]) .ap1 ∧ (leased none [.ap1]).lock.holding ≠ none
      ∧ (leased none []).lock.waiters = [] ∧ (leased none [.ap1, .ap2]).lock.waiters = .ap1 :: [.ap2]
      ∧ Port.ap1 ∈ (leased none [.ap1]).lock.waiters ∧ Port.ap2 ∉ (leased none [.ap1]).lock.waiters ∧ 1 < byteAt [2] 0 :=
  ⟨fun _ _ _ _ => asked_inHand .., rfl, ⟨none, rfl⟩, fun ⟨_, h⟩ => (by cases h), by decide, rfl, rfl, by decide, by decide,
    by decide⟩
theorem test_premises_Lease :
    (∀ s p code args, Holds (asked (heldBy s p) p code args) p ∧ InHand (asked (heldBy s p) p code args) p code args)
      ∧ (∀ lease waiters, Running (leased lease waiters) ∧ (leased lease waiters).lock.events = 0 + 1
          ∧ (leased lease waiters).lock.holding = some { port := .ap0, lease := lease }
          ∧ (leased lease waiters).lock.waiters = waiters)
      ∧ Running { idle with lock := { idle.lock with events := 1 } } ∧ idle.lock.holding = none ∧ 2 ≤ 2 :=
  ⟨fun _ _ _ _ => ⟨heldBy_holds .., asked_inHand ..⟩, fun _ _ => ⟨rfl, rfl, rfl, rfl⟩, rfl, rfl, by decide⟩

/-- A queue of notices, and two notices on their way to AP0. -/
def queue (n : Nat) : List Notice := List.replicate n { kind := .note, source := some .ap1, word := 1 }
def queued (n : Nat) : State :=
  { idle with queues := .all (queue n),
              posted := [sentNotice .conditionLog .ap0 .condition 9, sentNotice .lockArbiter .ap0 .lockLost 255] }

theorem test_premises_Notices :
    (∀ s p code args, InHand (asked s p code args) p code args) ∧ Running (queued 15)
      ∧ (∃ n before after, (queued 15).posted = before ++ n :: after ∧ n.sender = .lockArbiter ∧ ∀ x ∈ before, x.sender ≠ .lockArbiter)
      ∧ (∀ p, ((queued 14).queues.get p).length < 15 ∧ 15 ≤ ((queued 15).queues.get p).length)
      ∧ (∀ p, (queued 0).queues.get p = []) ∧ (∃ n later, (queued 2).queues.get .ap0 = n :: later) ∧ 3 < byteAt [4, 0, 0, 0, 0] 0 :=
  ⟨fun _ _ _ _ => asked_inHand .., rfl, ⟨_, [sentNotice .conditionLog .ap0 .condition 9], [], rfl, rfl, by decide⟩,
    fun p => by cases p <;> decide, fun p => by cases p <;> rfl, ⟨_, _, rfl⟩, by decide⟩

/-- Each way a request ends: short, a length out of range, a wrong sum, an unknown code, a whole request; and a port in INIT. -/
theorem test_premises_Requests :
    idle.startup ≠ .resetAsserted ∧ (idle.ports.get .ap0).state = .idle ∧ (idle.ports.get .ap0).select ≠ .refused
      ∧ (4 ≤ byteAt [4, 1] 0 ∧ byteAt [4, 1] 0 ≤ 72 ∧ [(4 : Byte), 1].length < byteAt [4, 1] 0)
      ∧ (byteAt [3] 0 < 4 ∧ 72 < byteAt [73] 0)
      ∧ ([(4 : Byte), 1, 5, 0xf6, 0xff] = (4 :: 1 :: 5 :: []) ++ 0xf6 :: [0xff] ∧ (4 : Byte).toNat = ([] : List Byte).length + 4)
      ∧ ((72 : Byte).toNat = (List.replicate 68 (0 : Byte)).length + 4 ∧ (List.replicate 68 (0 : Byte)).length ≤ 68)
      ∧ sumBytes [4, 1, 5, 0xf5] ≠ 0 ∧ sumBytes ([4, 1, 5] ++ [0xf6]) = 0 ∧ (∃ c, commandCode c = 1)
      ∧ sumBytes ([4, 8, 5] ++ [0xef]) = 0 ∧ (∀ c, commandCode c ≠ 8)
      ∧ State.reset.startup = .resetAsserted
      ∧ ((next (exec .resetRelease State.reset)).ports.get .ap0).state = .init
      ∧ ((next (exec .resetRelease State.reset)).ports.get .ap0).response = []
      ∧ (refuseInInit Access.reset).state = .init ∧ (refuseInInit Access.reset).response ≠ []
      ∧ ((asked idle .ap0 1 []).ports.get .ap0).state = .executing := by
  refine ⟨by decide, by decide, by decide, by decide, by decide, by decide, by decide, by decide, by decide, ⟨.identify, rfl⟩,
    by decide, fun c => by cases c <;> decide, by decide, by decide, by decide, by decide, by decide, by decide⟩

/-- A port with a request taken and answered, select open or released. -/
def answering (select : Select) (state : PortState) (response : List Byte) : Access :=
  { (asked idle .ap0 0x18 []).ports.get .ap0 with
    state := state, select := select, answer := some (.bare .ok), response := response }

theorem test_premises_Answers :
    let a := (putPort idle .ap0 (answering .open_ .executing [])).ports.get .ap0
    (a.state = .executing ∧ a.answer = some (.bare .ok) ∧ a.request = some { code := 0x18, number := 7, args := [], taken := false }
        ∧ a.select = .open_)
      ∧ ({ idle with appends := [commandAppend .streamTable .ap0 (bareRecord 0 .streamDefined false 0)] } : State).appends.any
          (fun x => x.holds == some .ap0) = true
      ∧ idle.appends = [] ∧ idle.portResets.get .ap0 = none
      ∧ (answering .released .executing []).select ≠ .open_
      ∧ ((answering .open_ .answering [1, 0, 255]).response.length ≤ 3 ∧ ¬(answering .open_ .answering [1, 0, 255]).response.length ≤ 2)
      ∧ (answering .refused .executing []).select = .refused ∧ (answering .released .executing []).select = .released
      ∧ ({ idle.ports.get .ap0 with select := .open_ } : Access).state = .idle
      ∧ ({ Access.reset with select := .open_ } : Access).state = .init
      ∧ (next (exec .resetRelease State.reset)).startup ≠ .resetAsserted := by
  refine ⟨⟨rfl, rfl, rfl, rfl⟩, ?_⟩; decide
theorem test_premises_Status :
    (∀ s p code args, InHand (asked s p code args) p code args)
      ∧ (31 < byteAt [32] 0 ∧ (31 : BitVec 5).toNat = 31)
      ∧ (({ idle.ports.get .ap0 with attn := true } : Access).attn = true ∧ (idle.ports.get .ap0).attn = false)
      ∧ Running { idle with statusEvents := [{ port := .ap0, latch := .deviceAlert }] }
      ∧ ∃ before after, [({ port := .ap0, latch := .deviceAlert } : StatusEvent)] = before ++ { port := .ap0, latch := .deviceAlert } :: after
          ∧ ∀ e ∈ before, e ≠ { port := .ap0, latch := .deviceAlert } :=
  ⟨fun _ _ _ _ => asked_inHand .., by decide, by decide, rfl, [], [], rfl, (by intro e h; cases h)⟩
theorem test_premises_PortReset :
    InHand (asked idle .ap1 0x06 []) .ap1 0x06 []
      ∧ ({ idle with portResets := idle.portResets.set .ap1 (some .begun) } : State).portResets.get .ap1 = some .begun
      ∧ (PortResetParts.begun.notices = false ∧ PortResetParts.begun.marks = false ∧ PortResetParts.begun.log = false
          ∧ PortResetParts.begun.lock = false ∧ PortResetParts.begun.watch = false)
      ∧ idle.portResets.get .ap1 = none
      ∧ ({ notices := true, marks := true, log := true, lock := true, watch := true } : PortResetParts).marks = true
      ∧ ¬Holds idle .ap1 ∧ Holds (leased none []) .ap0 ∧ (leased none [.ap2]).lock.waiters = .ap2 :: [] :=
  ⟨asked_inHand .., rfl, by decide, rfl, rfl, fun ⟨_, h⟩ => (by cases h), ⟨none, rfl⟩, rfl⟩
theorem test_premises_SoftReset :
    Holds (asked (heldBy idle .ap1) .ap1 0x07 []) .ap1 ∧ InHand (asked (heldBy idle .ap1) .ap1 0x07 []) .ap1 0x07 []
      ∧ (∀ parts, ({ idle with softResets := idle.softResets.set .ap1 (some parts) } : State).softResets.get .ap1 = some parts)
      ∧ (SoftResetParts.begun.notices = false ∧ SoftResetParts.begun.lock = false ∧ SoftResetParts.begun.intake = false
          ∧ SoftResetParts.begun.sweep = false ∧ SoftResetParts.begun.rating = false ∧ SoftResetParts.begun.watch = false)
      ∧ (({ SoftResetParts.begun with notices := true } : SoftResetParts).notices = true
          ∧ ({ SoftResetParts.begun with notices := true } : SoftResetParts).ports.get .ap2 = false)
      ∧ (∃ parts, FirstStageDone parts ∧ parts.log = false) ∧ ¬FirstStageDone .begun
      ∧ (∃ parts : SoftResetParts, parts.log = true) ∧ idle.log.midAccess = none ∧ idle.classifier = none
      ∧ ({ idle with classifier := some (handed 2 412 (.all 0)) } : State).classifier ≠ none :=
  ⟨heldBy_holds .., asked_inHand .., fun _ => rfl, by decide, by decide,
    ⟨⟨true, true, true, true, true, true, .all true, false⟩, ⟨rfl, rfl, rfl, rfl, rfl, rfl, fun q => by cases q <;> rfl⟩, rfl⟩,
    fun h => (by cases h.1), ⟨⟨true, true, true, true, true, true, .all true, true⟩, rfl⟩, rfl, rfl, by decide⟩
/-- The visit waits for the frame that the Classifier holds (R54, R55). -/
theorem test_visitWaits :
    let parts : SoftResetParts := ⟨true, true, true, true, true, true, .all true, true⟩
    let s := { idle with softResets := idle.softResets.set .ap1 (some parts) }
    (next (exec (.softResetVisit .ap1 []) { s with classifier := some (handed 2 412 (.all 0)) })).softResets.get .ap1 = some parts
      ∧ (next (exec (.softResetVisit .ap1 []) s)).softResets.get .ap1 = none := by decide
theorem test_premises_WrongArguments :
    (∀ s p code args, InHand (asked s p code args) p code args) ∧ [0] ≠ ([] : List Byte)
      ∧ Holds (asked (heldBy idle .ap0) .ap0 0x07 [0]) .ap0 ∧ ¬Holds (asked idle .ap0 0x07 []) .ap0 ∧ idle.log.midAccess = none
      ∧ 511 < halfAt [0, 2] 0 ∧ 1 < byteAt [0, 0, 2] 2 ∧ halfAt [1, 0, 0, 0] 2 < halfAt [1, 0, 0, 0] 0 ∧ 511 < halfAt [0, 0, 0, 2] 2
      ∧ 3 < byteAt [4] 0 ∧ 63 < byteAt [64, 1] 0 ∧ byteAt [0, 0] 1 = 0 ∧ 16 < byteAt [0, 17] 1 :=
  ⟨fun _ _ _ _ => asked_inHand .., by decide, heldBy_holds .., fun ⟨_, h⟩ => (by cases h), rfl, by decide⟩

/-! ### The premises of the laws that every step keeps: a lawful state that is not the reset state, and its step -/

theorem test_premises_IntakeLaws :
    CountersLaw (filled 256 (some 2)) ∧ IngestLaw (filled 256 (some 2)) ∧ ∃ t, step (filled 256 (some 2)) = .next t :=
  ⟨fun _ => by decide, by show List.length _ ≤ 256; decide, _, rfl⟩
theorem test_premises_TimebaseLaw :
    TimebaseLaw (timed (.holdover (held 999)) 2) ∧ ∃ t, step (timed (.holdover (held 999)) 2) = .next t :=
  ⟨by simp only [TimebaseLaw, timed, TimerWithin]; decide, _, rfl⟩
theorem test_premises_TableLaws :
    let s := withFrame (withSlot 0 (tracked .stale)) (frame410 106 .a 600200)
    TagMapLaw s ∧ StrayLaw s ∧ WindowLaw s ∧ GapLaw s ∧ ∃ t, step { s with pending := [.frameTake calm] } = .next t := by
  have h (m : Nat) : slotAt (withFrame (withSlot 0 (tracked .stale)) (frame410 106 .a 600200)).table m
      = if m = 0 then tracked .stale else .free := withSlot_slot 0 m _ (by decide)
  refine ⟨⟨fun n hn => ?_, fun m n hm hn _ => ?_⟩, ⟨by decide, by decide, fun e he => by cases he⟩, fun n hn => ?_,
    ⟨by decide, fun _ n hn => ?_⟩, _, rfl⟩
  · rw [h] at hn ⊢
    by_cases hz : n = 0
    · rw [if_pos hz]; simp only [ValidTag]; decide
    · rw [if_neg hz] at hn; exact absurd rfl hn
  · rw [h] at hm hn
    by_cases hz : m = 0 <;> by_cases hy : n = 0
    · omega
    · rw [if_neg hy] at hn; exact absurd rfl hn
    · rw [if_neg hz] at hm; exact absurd rfl hm
    · rw [if_neg hz] at hm; exact absurd rfl hm
  · rw [h] at hn ⊢
    by_cases hz : n = 0
    · rw [if_pos hz]; exact after104_window
    · rw [if_neg hz] at hn; cases hn <;> contradiction
  · rw [h] at hn ⊢
    by_cases hz : n = 0
    · rw [if_pos hz]; decide
    · rw [if_neg hz] at hn; cases hn
theorem test_premises_AccountsLaw : AccountsLaw (withSlot 0 (slot410 .defined)) ∧ ∃ t, step (withSlot 0 (slot410 .defined)) = .next t := by
  refine ⟨fun n hn => ?_, _, rfl⟩
  rw [withSlot_slot 0 n _ (by decide)] at hn ⊢
  by_cases hz : n = 0
  · rw [if_pos hz]; exact slot410_accounts
  · rw [if_neg hz] at hn; exact absurd rfl hn
theorem test_premises_LogLaw : LogLaw logged ∧ ∃ t, step logged = .next t := by
  refine ⟨⟨by decide, by decide, by decide, fun i r hr => ?_, fun p => .inr ?_⟩, _, rfl⟩
  · match i, hr with
    | 0, hr => cases hr; decide
    | i + 1, hr => cases hr
  · cases p <;> exact ⟨_, List.mem_singleton.2 rfl, rfl⟩
theorem test_premises_WatchLaw : WatchLaw (lawfulWatch (some capture531)) ∧ ∃ t, step (lawfulWatch (some capture531)) = .next t :=
  ⟨test_premises_Handoff.2.1, _, rfl⟩
theorem test_premises_LockNoticeAttention :
    LockLaw (leased (some 1) [.ap1, .ap2]) ∧ NoticeLaw (queued 15)
      ∧ AttentionLaw (putPort idle .ap0 { idle.ports.get .ap0 with enables := 16, attn := true, latches := { Latches.clear with deviceAlert := true } })
      ∧ ∃ t, step (queued 15) = .next t := by
  refine ⟨?_, fun p => by cases p <;> decide, fun p => by cases p <;> decide, _, rfl⟩
  refine ⟨by decide, ?_⟩
  show List.Nodup [Port.ap1, .ap2] ∧ Port.ap0 ∉ [Port.ap1, .ap2] ∧ [Port.ap1, .ap2].length ≤ 2 ∧ ∀ n, some 1 = some n → 1 ≤ n ∧ n ≤ 65535
  exact ⟨by decide, by decide, by decide, fun n h => by cases h; decide⟩

end Sys2Proof.Tests
end

section
/-! SUPPORT. What each command leaves of the Intake: every meaning outside chapter 01 and FRAME_TAKE keeps it whole. -/

namespace Sys2Proof.Machine

/-! ### Shared operations -/

@[simp] theorem refuse_fst (s : State) (code : Response) : (refuse s code).1 = s := rfl
@[simp] theorem done_fst (s : State) : (done s).1 = s := rfl
@[simp] theorem doneWith_fst (s : State) (data : List Byte) : (doneWith s data).1 = s := rfl

@[simp] theorem failAccess_intake (s : State) (cycle : Word) (n : Nat) (sl : Slot) (code : Nat) :
    (failAccess s cycle n sl code).intake = s.intake := rfl
@[simp] theorem placeNotice_intake (s : State) (p : Port) (n : Notice) : (placeNotice s p n).intake = s.intake := rfl
@[simp] theorem appendRecord_intake (s : State) (c : Condition) : (appendRecord s c).intake = s.intake := rfl

/-- An event whose work changes nothing leaves the state as it is, in INIT and after it. -/
theorem whenRunning_eq_self {f : State → State} {s : State} (h : f s = s) : whenRunning f s = s := by
  obtain hw | hw := whenRunning_cases f s
  · exact hw
  · exact hw.trans h

theorem whenRunning_intake (f : State → State) (s : State) (hf : ∀ t, (f t).intake = t.intake) :
    (whenRunning f s).intake = s.intake := by
  obtain h | h := whenRunning_cases f s <;> simp [h, hf]

theorem serve_intake (c : Command) (p : Port) (f : List Byte → State → Served) (s : State)
    (hf : ∀ args t, (f args t).1.intake = t.intake) : (serve c p f s).intake = s.intake :=
  Safety.serve_keeps (fun t => t.intake = s.intake) c p f s (fun _ _ h => h) (fun args t h => (hf args t).trans h) rfl

theorem underLock_intake (p : Port) (f : List Byte → State → Served) (hf : ∀ args t, (f args t).1.intake = t.intake)
    (args : List Byte) (s : State) : (underLock p f args s).1.intake = s.intake :=
  Safety.underLock_keeps (fun t => t.intake = s.intake) p f args s (fun args t h => (hf args t).trans h) rfl

theorem noArgs_intake (f : State → Served) (hf : ∀ t, (f t).1.intake = t.intake) (args : List Byte) (s : State) :
    (noArgs f args s).1.intake = s.intake :=
  Safety.noArgs_keeps (fun t => t.intake = s.intake) f args s (fun t h => (hf t).trans h) rfl

theorem onRecord_intake (n : Nat) (upset : Bool) (f : Slot → State → Served) (s : State)
    (hf : ∀ sl t, (f sl t).1.intake = t.intake) : (onRecord n upset f s).1.intake = s.intake := by
  unfold onRecord
  dsimp only
  split
  · rfl
  split
  · rfl
  split
  · exact hf _ _
  · rfl

/-! ### The Stream Table (03) -/

theorem defineStream_intake (p : Port) (args : List Byte) (s : State) : (defineStream p args s).1.intake = s.intake := by
  unfold defineStream
  repeat' split
  all_goals rfl

theorem redefineStream_intake (upset : Bool) (args : List Byte) (s : State) :
    (redefineStream upset args s).1.intake = s.intake := by
  unfold redefineStream
  split
  · rfl
  · refine onRecord_intake _ _ _ _ fun sl t => ?_
    unfold redefineSlot
    split <;> rfl

theorem retireStream_intake (p : Port) (args : List Byte) (s : State) : (retireStream p args s).1.intake = s.intake := by
  unfold retireStream
  split
  · rfl
  · dsimp only
    split <;> rfl

theorem readDefinition_intake (upset : Bool) (args : List Byte) (s : State) :
    (readDefinition upset args s).1.intake = s.intake := by
  unfold readDefinition
  split
  · rfl
  · exact onRecord_intake _ _ _ _ fun _ _ => rfl

theorem readWindow_intake (upset : Bool) (args : List Byte) (s : State) : (readWindow upset args s).1.intake = s.intake := by
  unfold readWindow
  split
  · rfl
  · exact onRecord_intake _ _ _ _ fun _ _ => rfl

theorem listStreams_intake (args : List Byte) (s : State) : (listStreams args s).1.intake = s.intake := by
  unfold listStreams
  dsimp only
  split <;> rfl

theorem readStrays_intake (args : List Byte) (s : State) : (readStrays args s).1.intake = s.intake := by
  unfold readStrays
  dsimp only
  split <;> rfl

theorem stepSilence_intake (u : Upset) (s : State) : (stepSilence u s).intake = s.intake := by
  have visit (n : Nat) (count : Word) : (visitSilence n count u s).intake = s.intake := by
    unfold visitSilence checkSilence
    dsimp only
    repeat' split
    all_goals rfl
  unfold stepSilence
  split
  · rfl
  · exact visit _ _

/-! ### Tallies, marks and sweeps (05) -/

@[simp] theorem advanceMark_intake (p : Port) (w : MarkWalk) (s : State) : (advanceMark p w s).intake = s.intake := by
  unfold advanceMark
  split <;> rfl

theorem startMark_intake (p : Port) (args : List Byte) (s : State) : (startMark p args s).1.intake = s.intake := by
  unfold startMark
  split <;> rfl

theorem stepMark_intake (p : Port) (upset : Bool) (s : State) : (stepMark p upset s).intake = s.intake := by
  have visit (w : MarkWalk) : (visitMark p upset w s).intake = s.intake := by
    unfold visitMark
    dsimp only
    repeat' split
    all_goals simp
  unfold stepMark
  split
  · rfl
  · exact visit _

theorem readSheet_intake (p : Port) (upset : Bool) (args : List Byte) (s : State) :
    (readSheet p upset args s).1.intake = s.intake := by
  unfold readSheet
  dsimp only
  split
  · exact onRecord_intake _ _ _ _ fun _ _ => rfl
  · rfl

theorem startSweep_intake (kind : SweepKind) (p : Port) (args : List Byte) (s : State) :
    (startSweep kind p args s).1.intake = s.intake := by
  unfold startSweep
  repeat' split
  all_goals rfl

@[simp] theorem advanceSweep_intake (w : Sweep) (s : State) : (advanceSweep w s).intake = s.intake := by
  unfold advanceSweep finishSweep
  dsimp only
  repeat' split
  all_goals rfl

theorem stepClear_intake (upset : Bool) (s : State) : (stepClear upset s).intake = s.intake := by
  have visit (w : Sweep) : (visitClear upset w s).intake = s.intake := by
    unfold visitClear
    dsimp only
    repeat' split
    all_goals simp
  unfold stepClear
  repeat' split
  all_goals simp [visit]

theorem stepScrub_intake (upset : Bool) (s : State) : (stepScrub upset s).intake = s.intake := by
  have visit (w : Sweep) : (visitScrub upset w s).intake = s.intake := by
    unfold visitScrub
    dsimp only
    repeat' split
    all_goals simp
  unfold stepScrub
  repeat' split
  all_goals simp [visit]

theorem abortSweep_intake (p : Port) (s : State) : (abortSweep p s).1.intake = s.intake := by
  unfold abortSweep
  repeat' split
  all_goals rfl

/-! ### Grades (06) -/

@[simp] theorem takeRatingEvent_intake (s : State) : (takeRatingEvent s).intake = s.intake := by
  unfold takeRatingEvent
  split <;> rfl

theorem stepRating_intake (u : Upset) (s : State) : (stepRating u s).intake = s.intake := by
  have visit (n : Nat) : (visitRating n u s).intake = s.intake := by
    unfold visitRating rateSlot
    dsimp only
    repeat' split
    all_goals rfl
  unfold stepRating
  split
  · rfl
  · exact visit _

theorem setGrading_intake (upset : Bool) (args : List Byte) (s : State) : (setGrading upset args s).1.intake = s.intake := by
  unfold setGrading
  split
  · rfl
  · exact onRecord_intake _ _ _ _ fun _ _ => rfl

theorem setRating_intake (args : List Byte) (s : State) : (setRating args s).1.intake = s.intake := by
  unfold setRating
  split <;> rfl

theorem readGrades_intake (upset : Bool) (args : List Byte) (s : State) : (readGrades upset args s).1.intake = s.intake := by
  unfold readGrades
  split
  · rfl
  · exact onRecord_intake _ _ _ _ fun _ _ => rfl

/-! ### The tally lock (10) -/

@[simp] theorem passLock_intake (cause : PassCause) (s : State) : (passLock cause s).intake = s.intake := by
  unfold passLock
  split <;> rfl

@[simp] theorem takeLockEvent_intake (s : State) : (takeLockEvent s).intake = s.intake := by
  unfold takeLockEvent countLease expireLease
  repeat' split
  all_goals simp

theorem claimLock_intake (p : Port) (args : List Byte) (s : State) : (claimLock p args s).1.intake = s.intake := by
  unfold claimLock claimHeld
  repeat' split
  all_goals rfl

theorem releaseLock_intake (p : Port) (s : State) : (releaseLock p s).1.intake = s.intake := by
  unfold releaseLock
  repeat' split
  all_goals simp

theorem setLease_intake (args : List Byte) (s : State) : (setLease args s).1.intake = s.intake := by
  unfold setLease
  split <;> rfl

@[simp] theorem resetLockPort_intake (p : Port) (s : State) : (resetLockPort p s).intake = s.intake := by
  unfold resetLockPort
  split <;> simp

/-! ### The Condition Log (07) -/

theorem takeLogAppend_intake (src : LogSource) (s : State) : (takeLogAppend src s).intake = s.intake := by
  have release (t : State) : (releaseHandoff t).intake = t.intake := by
    unfold releaseHandoff
    repeat' split
    all_goals rfl
  unfold takeLogAppend
  repeat' split
  all_goals simp [release]

theorem readLog_intake (p : Port) (args : List Byte) (s : State) : (readLog p args s).1.intake = s.intake := by
  unfold readLog
  dsimp only
  repeat' split
  all_goals rfl

theorem seekLog_intake (p : Port) (args : List Byte) (s : State) : (seekLog p args s).1.intake = s.intake := by
  unfold seekLog
  split <;> rfl

theorem setSubscription_intake (p : Port) (args : List Byte) (s : State) :
    (setSubscription p args s).1.intake = s.intake := by
  unfold setSubscription
  split <;> rfl

/-! ### The notice queues (10) -/

theorem takeDeviceNotice_intake (src : NoticeSource) (s : State) : (takeDeviceNotice src s).intake = s.intake := by
  unfold takeDeviceNotice placeDeviceNotice overflowNotice
  repeat' split
  all_goals rfl

theorem postNote_intake (p : Port) (args : List Byte) (s : State) : (postNote p args s).1.intake = s.intake := by
  have all (n : Notice) (ports : List Port) (t : State) :
      (ports.foldl (fun t q => placeNotice t q n) t).intake = t.intake := by
    induction ports generalizing t with
    | nil => rfl
    | cons q rest ih => exact ih _
  unfold postNote postToOne postToAll
  dsimp only
  repeat' split
  all_goals simp [all]

theorem peekNotice_intake (p : Port) (s : State) : (peekNotice p s).1.intake = s.intake := by
  unfold peekNotice
  split <;> rfl

theorem takeNotice_intake (p : Port) (s : State) : (takeNotice p s).1.intake = s.intake := by
  unfold takeNotice
  split <;> rfl

theorem flushNotices_intake (p : Port) (s : State) : (flushNotices p s).1.intake = s.intake := by
  unfold flushNotices
  split <;> rfl

/-! ### The Access Ports (09) -/

theorem answerPort_intake (p : Port) (s : State) : (answerPort p s).intake = s.intake := by
  unfold answerPort
  dsimp only
  repeat' split
  all_goals rfl

theorem takeStatusSource_intake (p : Port) (l : Latch) (s : State) : (takeStatusSource p l s).intake = s.intake := by
  unfold takeStatusSource
  split <;> rfl

theorem clearStatus_intake (p : Port) (args : List Byte) (s : State) : (clearStatus p args s).1.intake = s.intake := by
  unfold clearStatus
  split <;> rfl

theorem setAttention_intake (p : Port) (args : List Byte) (s : State) : (setAttention p args s).1.intake = s.intake := by
  unfold setAttention
  split <;> rfl

/-! ### The Cycle Monitor (02) -/

theorem takePulse_intake (dt : Nat) (s : State) : (takePulse dt s).intake = s.intake := by
  unfold takePulse pulseAcquiring pulseLocked pulseHoldover
  dsimp only
  repeat' split
  all_goals rfl

theorem takeExpiry_intake (s : State) : (takeExpiry s).intake = s.intake := by
  unfold takeExpiry expireLocked expireHoldover endHoldoverAtLimit
  repeat' split
  all_goals rfl

theorem setTimebase_intake (p : Port) (args : List Byte) (s : State) : (setTimebase p args s).1.intake = s.intake := by
  unfold setTimebase
  split <;> rfl

/-! ### The Watch Block (08) -/

@[simp] theorem extendCapture_intake (c : Capture) (h : Handoff) (s : State) : (extendCapture c h s).intake = s.intake := by
  unfold extendCapture
  dsimp only
  split <;> rfl

@[simp] theorem endCaptureOf_intake (u : UnitId) (s : State) : (endCaptureOf u s).intake = s.intake := by
  unfold endCaptureOf
  repeat' split
  all_goals rfl

@[simp] theorem markFired_intake (u : UnitId) (c : Tally) (h : Handoff) (s : State) : (markFired u c h s).intake = s.intake := by
  unfold markFired
  dsimp only
  split <;> rfl

@[simp] theorem fireUnit_intake (u : UnitId) (c : Tally) (h : Handoff) (s : State) :
    (fireUnit u c h s).1.intake = s.intake := by
  unfold fireUnit startCapture
  dsimp only
  repeat' split
  all_goals simp

@[simp] theorem serveUnits_intake (units : PerUnit WatchUnit) (h : Handoff) (us : List UnitId) (s : State) :
    (serveUnits units h us s).1.intake = s.intake := by
  induction us generalizing s with
  | nil => rfl
  | cons u rest ih =>
    unfold serveUnits
    split
    · rw [ih]; rfl
    · dsimp only
      rw [ih, fireUnit_intake]

theorem stepHandoff_intake (s : State) : (stepHandoff s).intake = s.intake := by
  have offer (h : Handoff) (t : State) : (offerToCapture h t).intake = t.intake := by
    unfold offerToCapture
    repeat' split
    all_goals simp
  unfold stepHandoff takeHandoff
  split
  · rfl
  · simp [offer]

theorem armWatch_intake (p : Port) (args : List Byte) (s : State) : (armWatch p args s).1.intake = s.intake := by
  have arm (a : ArmArgs) : (armUnit p a s).intake = s.intake := by
    unfold armUnit
    dsimp only
    repeat' split
    all_goals simp
  unfold armWatch
  repeat' split
  all_goals simp [arm]

theorem disarmWatch_intake (p : Port) (args : List Byte) (s : State) : (disarmWatch p args s).1.intake = s.intake := by
  have free (u : UnitId) : (freeUnit u s).intake = s.intake := by
    unfold freeUnit
    split <;> simp
  unfold disarmWatch
  repeat' split
  all_goals simp [free]

theorem readWatch_intake (args : List Byte) (s : State) : (readWatch args s).1.intake = s.intake := by
  unfold readWatch
  split <;> rfl

theorem readCapture_intake (p : Port) (args : List Byte) (s : State) : (readCapture p args s).1.intake = s.intake := by
  unfold readCapture
  dsimp only
  repeat' split
  all_goals rfl

theorem releaseCapture_intake (p : Port) (s : State) : (releaseCapture p s).1.intake = s.intake := by
  unfold releaseCapture
  repeat' split
  all_goals rfl

end Sys2Proof.Machine
end

section
/-! SUPPORT. What a command can do to the Intake, said once: nothing, or one of the changes of chapter 01. -/

namespace Sys2Proof.Machine

/-! ### Commands that leave the Intake whole -/

/-- The commands that can change the Intake: RESET and start-up, the rows of chapter 01, and FRAME_TAKE. -/
def actsOnIntake : Instr → Bool
  | .resetAssert | .resetRelease | .initEnd _ | .descriptorRun _ | .linkApply | .frameTake _ | .softResetIntake _ _
  | .readIntake _ => true
  | _ => false

/-- The frame of the Intake: every other command leaves it whole. -/
theorem exec_keeps_intake (c : Instr) (s : State) (hc : actsOnIntake c = false) :
    ∃ t, exec c s = .next t ∧ t.intake = s.intake := by
  cases c with
  | resetAssert | resetRelease | initEnd | descriptorRun | linkApply | frameTake | softResetIntake | readIntake => cases hc
  -- a block's part of a reset
  | portResetNotices | portResetMarks | portResetLog | portResetWatch | softResetNotices | softResetLock
  | softResetSweep | softResetRating | softResetWatch | softResetPort | softResetLog | softResetVisit =>
    refine ⟨_, rfl, ?_⟩
    repeat' split
    all_goals rfl
  | portResetLock =>
    refine ⟨_, rfl, ?_⟩
    repeat' split
    all_goals simp
  -- the select line and the bytes shifted in, and an erase that waits for an access's records
  | requestComplete | selectRelease =>
    refine ⟨_, rfl, ?_⟩
    split <;> rfl
  | selectRefused => exact ⟨_, rfl, rfl⟩
  | eraseLog p =>
    refine ⟨_, rfl, ?_⟩
    split
    · rfl
    · exact serve_intake _ _ _ _ (underLock_intake _ _ (noArgs_intake _ fun _ => rfl))
  -- events of the blocks
  | lineCyclePulse => exact ⟨_, rfl, whenRunning_intake _ _ (takePulse_intake _)⟩
  | timerExpiry => exact ⟨_, rfl, whenRunning_intake _ _ takeExpiry_intake⟩
  | silenceCheck => exact ⟨_, rfl, whenRunning_intake _ _ (stepSilence_intake _)⟩
  | ratingCycleEvent => exact ⟨_, rfl, whenRunning_intake _ _ takeRatingEvent_intake⟩
  | ratingDue => exact ⟨_, rfl, whenRunning_intake _ _ fun t => by split <;> simp⟩
  | ratingStep => exact ⟨_, rfl, whenRunning_intake _ _ (stepRating_intake _)⟩
  | lockCycleEvent => exact ⟨_, rfl, whenRunning_intake _ _ takeLockEvent_intake⟩
  | leaseExpiry => exact ⟨_, rfl, whenRunning_intake _ _ fun t => by split <;> simp⟩
  | watchHandoff => exact ⟨_, rfl, whenRunning_intake _ _ stepHandoff_intake⟩
  | clearStep => exact ⟨_, rfl, whenRunning_intake _ _ (stepClear_intake _)⟩
  | scrubStep => exact ⟨_, rfl, whenRunning_intake _ _ (stepScrub_intake _)⟩
  | markVisit => exact ⟨_, rfl, whenRunning_intake _ _ (stepMark_intake _ _)⟩
  | logAppend => exact ⟨_, rfl, whenRunning_intake _ _ (takeLogAppend_intake _)⟩
  | noticePlace => exact ⟨_, rfl, whenRunning_intake _ _ (takeDeviceNotice_intake _)⟩
  | statusSourceSet => exact ⟨_, rfl, whenRunning_intake _ _ (takeStatusSource_intake _ _)⟩
  | blockAnswer => exact ⟨_, rfl, answerPort_intake _ _⟩
  -- commands of the book without arguments
  | identify | readStatus | rearmAttention | portReset | readTimebase | readSweep | readRating | readLogStatus | readLock =>
    exact ⟨_, rfl, serve_intake _ _ _ _ (noArgs_intake _ fun _ => rfl)⟩
  | softReset | clearStrays => exact ⟨_, rfl, serve_intake _ _ _ _ (underLock_intake _ _ (noArgs_intake _ fun _ => rfl))⟩
  | abortSweep => exact ⟨_, rfl, serve_intake _ _ _ _ (noArgs_intake _ (abortSweep_intake _))⟩
  | releaseCapture => exact ⟨_, rfl, serve_intake _ _ _ _ (noArgs_intake _ (releaseCapture_intake _))⟩
  | releaseLock => exact ⟨_, rfl, serve_intake _ _ _ _ (noArgs_intake _ (releaseLock_intake _))⟩
  | peekNotice => exact ⟨_, rfl, serve_intake _ _ _ _ (noArgs_intake _ (peekNotice_intake _))⟩
  | takeNotice => exact ⟨_, rfl, serve_intake _ _ _ _ (noArgs_intake _ (takeNotice_intake _))⟩
  | flushNotices => exact ⟨_, rfl, serve_intake _ _ _ _ (noArgs_intake _ (flushNotices_intake _))⟩
  -- commands of the book with arguments
  | clearStatus => exact ⟨_, rfl, serve_intake _ _ _ _ (clearStatus_intake _)⟩
  | setAttention => exact ⟨_, rfl, serve_intake _ _ _ _ (setAttention_intake _)⟩
  | setTimebase => exact ⟨_, rfl, serve_intake _ _ _ _ (underLock_intake _ _ (setTimebase_intake _))⟩
  | defineStream => exact ⟨_, rfl, serve_intake _ _ _ _ (underLock_intake _ _ (defineStream_intake _))⟩
  | redefineStream => exact ⟨_, rfl, serve_intake _ _ _ _ (underLock_intake _ _ (redefineStream_intake _))⟩
  | retireStream => exact ⟨_, rfl, serve_intake _ _ _ _ (underLock_intake _ _ (retireStream_intake _))⟩
  | readDefinition => exact ⟨_, rfl, serve_intake _ _ _ _ (readDefinition_intake _)⟩
  | listStreams => exact ⟨_, rfl, serve_intake _ _ _ _ listStreams_intake⟩
  | readStrays => exact ⟨_, rfl, serve_intake _ _ _ _ readStrays_intake⟩
  | readWindow => exact ⟨_, rfl, serve_intake _ _ _ _ (readWindow_intake _)⟩
  | mark => exact ⟨_, rfl, serve_intake _ _ _ _ (startMark_intake _)⟩
  | readSheet => exact ⟨_, rfl, serve_intake _ _ _ _ (readSheet_intake _ _)⟩
  | clearTallies => exact ⟨_, rfl, serve_intake _ _ _ _ (underLock_intake _ _ (startSweep_intake _ _))⟩
  | startScrub => exact ⟨_, rfl, serve_intake _ _ _ _ (startSweep_intake _ _)⟩
  | setGrading => exact ⟨_, rfl, serve_intake _ _ _ _ (underLock_intake _ _ (setGrading_intake _))⟩
  | setRating => exact ⟨_, rfl, serve_intake _ _ _ _ (underLock_intake _ _ setRating_intake)⟩
  | readGrades => exact ⟨_, rfl, serve_intake _ _ _ _ (readGrades_intake _)⟩
  | readLog => exact ⟨_, rfl, serve_intake _ _ _ _ (readLog_intake _)⟩
  | seekLog => exact ⟨_, rfl, serve_intake _ _ _ _ (seekLog_intake _)⟩
  | setSubscription => exact ⟨_, rfl, serve_intake _ _ _ _ (setSubscription_intake _)⟩
  | armWatch => exact ⟨_, rfl, serve_intake _ _ _ _ (armWatch_intake _)⟩
  | disarmWatch => exact ⟨_, rfl, serve_intake _ _ _ _ (disarmWatch_intake _)⟩
  | readWatch => exact ⟨_, rfl, serve_intake _ _ _ _ readWatch_intake⟩
  | readCapture => exact ⟨_, rfl, serve_intake _ _ _ _ (readCapture_intake _)⟩
  | claimLock => exact ⟨_, rfl, serve_intake _ _ _ _ (claimLock_intake _)⟩
  | setLease => exact ⟨_, rfl, serve_intake _ _ _ _ (underLock_intake _ _ setLease_intake)⟩
  | postNote => exact ⟨_, rfl, serve_intake _ _ _ _ (postNote_intake _)⟩

/-! ### The changes of the Intake -/

/-- What the classification of a frame counts in the Intake: nothing, an eviction from the stray list, a discard at a FAULTED
slot, or a path NONE for a DUAL stream (R13, R49, R56). -/
inductive FrameCounted (i : Intake) : Intake → Prop
  | nothing : FrameCounted i i
  | eviction : FrameCounted i (setCounters i { i.counters with strayEvictions := satAdd max32 i.counters.strayEvictions 1 })
  | faultedDiscard : FrameCounted i
      { setCounters i { i.counters with faultedDiscards := satAdd max32 i.counters.faultedDiscards 1 } with
        frameCount := some .faultedDiscard }
  | malformedClass : FrameCounted i
      { setCounters i { i.counters with malformedClass := satAdd max32 i.counters.malformedClass 1 } with
        frameCount := some .malformedClass }

/-- What a command can do to the Intake. -/
inductive IntakeChange (i : Intake) : Intake → Prop
  | kept : IntakeChange i i
  | reset : IntakeChange i .reset
  | softReset (late : Bool) : IntakeChange i (softResetIntake late i)
  | strobe (stale : Bool) : IntakeChange i { i with staleRun := stale }
  | malformed : IntakeChange i (countMalformed i)
  | badFrame : IntakeChange i (countBadFrame i)
  | admitted (d : Descriptor) (room : i.queue.length < Config.ingestDescriptors) : IntakeChange i (admitDescriptor i d)
  | lost (full : ¬i.queue.length < Config.ingestDescriptors) : IntakeChange i (loseDescriptor i)
  | linkApplied (port : RingPort) (up : Bool) (rest : List Descriptor) (front : i.queue = .link port up :: rest) :
      IntakeChange i (setPathOfPort (removeFront i rest) port (pathAfterLink (pathOfPort i port) up))
  | frameTaken (f : Frame) (rest : List Descriptor) (j : Intake) (front : i.queue = .frame f :: rest)
      (counted : FrameCounted { removeFront i rest with frameCount := none } j) : IntakeChange i j
  | accountRead : IntakeChange i { i with frameCount := none }

theorem takeRun_intakeChange (bytes : List Byte) (s : State) : IntakeChange s.intake (takeRun bytes s).intake := by
  unfold takeRun offerDescriptor
  split
  · exact .strobe false
  split
  · split
    · exact .malformed
    · exact .badFrame
    · split
      · next room => exact .admitted _ room
      · next full => exact .lost full
  · exact .malformed

theorem applyLink_intakeChange (s : State) : IntakeChange s.intake (applyLink s).intake := by
  unfold applyLink
  split
  · next front => exact .linkApplied _ _ _ front
  · exact .kept

/-- A frame without a slot counts an eviction from a full stray list, and nothing else (R49). -/
theorem takeStray_counted (f : Frame) (s : State) : FrameCounted s.intake (takeStray f s).intake := by
  unfold takeStray
  dsimp only [hand_intake]
  split
  · exact .eviction
  · exact .nothing

@[simp] theorem takeIntoRecord_intake (n : Nat) (sl : Slot) (f : Frame) (during : Bool) (s : State) :
    (takeIntoRecord n sl f during s).intake = s.intake := by
  unfold takeIntoRecord makeHandoff
  dsimp only
  split <;> rfl

/-- A frame of a slot's tag counts at most its own discard (R56). -/
theorem takeForSlot_counted (n : Nat) (f : Frame) (u : Upset) (s : State) :
    FrameCounted s.intake (takeForSlot n f u s).intake := by
  unfold takeForSlot
  dsimp only
  split
  · exact .faultedDiscard
  split
  · exact .faultedDiscard
  split
  · exact .malformedClass
  · rw [takeIntoRecord_intake]
    exact .nothing

/-- The classification of a frame counts what its slot, or the stray list, makes of it (R56). -/
theorem classifyFrame_counted (f : Frame) (u : Upset) (s : State) : FrameCounted s.intake (classifyFrame f u s).intake := by
  unfold classifyFrame
  split
  · exact takeStray_counted f s
  · exact takeForSlot_counted _ f u s

theorem takeFrame_intakeChange (u : Upset) (s : State) : IntakeChange s.intake (takeFrame u s).intake := by
  unfold takeFrame
  split
  · next f rest _ front =>
    split
    · exact .kept
    · exact .frameTaken f rest _ front (classifyFrame_counted f u
        { s with intake := { removeFront s.intake rest with frameCount := none } })
  · exact .kept

theorem whenRunning_intakeChange (f : State → State) (s : State) (hf : IntakeChange s.intake (f s).intake) :
    IntakeChange s.intake (whenRunning f s).intake := by
  obtain h | h := whenRunning_cases f s
  · rw [h]; exact .kept
  · rw [h]; exact hf

/-- Serving a request leaves the Intake as it is, or as its block's work on the request leaves it. -/
theorem serve_intake_cases (c : Command) (p : Port) (f : List Byte → State → Served) (s : State) :
    (serve c p f s).intake = s.intake
      ∨ ∃ args, (serve c p f s).intake = (f args (putPort s p (markTaken (s.ports.get p)))).1.intake := by
  obtain h | ⟨args, -, ⟨-, h⟩ | ⟨ans, -, h⟩⟩ := serve_cases c p f s
  · exact .inl (by rw [h])
  · exact .inr ⟨args, by rw [h]⟩
  · exact .inr ⟨args, by rw [h, giveAnswer_intake]⟩

/-- READ-INTAKE drops the note of the Classifier's last count (R14, notes/assumptions/19), unless its arguments are refused. -/
theorem serve_readIntake_intakeChange (p : Port) (s : State) :
    IntakeChange s.intake (serve .readIntake p (noArgs readIntake) s).intake := by
  obtain h | ⟨args, h⟩ := serve_intake_cases .readIntake p (noArgs readIntake) s
  · rw [h]; exact .kept
  · rw [h]
    cases args with
    | nil => exact .accountRead
    | cons => exact .kept

/-- Every command makes one of these changes. -/
theorem exec_intakeChange (c : Instr) (s : State) : ∃ t, exec c s = .next t ∧ IntakeChange s.intake t.intake := by
  cases hc : actsOnIntake c with
  | false =>
    obtain ⟨t, ht, hi⟩ := exec_keeps_intake c s hc
    exact ⟨t, ht, hi ▸ .kept⟩
  | true =>
    cases c with
    | resetAssert => exact ⟨_, rfl, .reset⟩
    | resetRelease =>
      refine ⟨_, rfl, ?_⟩
      split
      · exact .reset
      · exact .kept
    | initEnd strobe =>
      refine ⟨_, rfl, ?_⟩
      split
      · exact .strobe strobe
      · exact .kept
    | descriptorRun bytes => exact ⟨_, rfl, whenRunning_intakeChange _ s (takeRun_intakeChange bytes s)⟩
    | linkApply => exact ⟨_, rfl, whenRunning_intakeChange _ s (applyLink_intakeChange s)⟩
    | frameTake u => exact ⟨_, rfl, whenRunning_intakeChange _ s (takeFrame_intakeChange u s)⟩
    | readIntake p => exact ⟨_, rfl, serve_readIntake_intakeChange p s⟩
    | softResetIntake issuer late =>
      refine ⟨_, rfl, ?_⟩
      split
      · split
        · exact .kept
        · exact .softReset late
      · exact .kept
    | _ => cases hc

end Sys2Proof.Machine
end

section
/-! SUPPORT. The statements of chapter 01, the Observation Link and the Intake. -/

namespace Sys2Proof.Safety

open Sys2Proof.Machine

/-! ### The laws of the Intake that every step keeps (R4, R13) -/

/-- A law of the Intake alone is kept by every step when every change of the Intake keeps it. -/
theorem keptByEveryStep_of_intakeChange (law : Intake → Prop) (hc : ∀ i j, IntakeChange i j → law i → law j) :
    KeptByEveryStep (fun s => law s.intake) := by
  refine keptByEveryStep_of _ (fun _ _ h => h) (fun _ h => h) fun c s t hl ht => ?_
  obtain ⟨t', ht', hi⟩ := exec_intakeChange c s
  obtain rfl : t' = t := Host.Outcome.next.inj (ht'.symm.trans ht)
  exact hc _ _ hi hl

/-- `CountersLaw` as a law of the four counters of arrivals and of RECEIVED. -/
def Balanced (c : IntakeCounters) : Prop :=
  c.received < max32 → c.received = c.admitted + c.lost + c.badFrames + c.malformedArrival

theorem countersLaw_eq : CountersLaw = fun s => Balanced s.intake.counters := rfl

theorem balanced_of_frameCounted {i j : Intake} (h : FrameCounted i j) (hi : Balanced i.counters) : Balanced j.counters := by
  cases h <;> exact hi

theorem balanced_of_intakeChange {i j : Intake} (h : IntakeChange i j) (hi : Balanced i.counters) : Balanced j.counters := by
  cases h with
  | kept | strobe | accountRead => exact hi
  | reset | softReset => exact fun _ => rfl
  | linkApplied port => cases port <;> exact hi
  | frameTaken f rest _ front counted => exact balanced_of_frameCounted counted hi
  | malformed | badFrame | admitted | lost =>
    -- with RECEIVED below saturation none of the four can saturate, so both sides grow by 1
    simp only [Balanced, countMalformed, countBadFrame, admitDescriptor, loseDescriptor, setCounters, satAdd, max32] at hi ⊢
    omega

theorem queue_of_frameCounted {i j : Intake} (h : FrameCounted i j) : j.queue = i.queue := by
  cases h <;> rfl

theorem queue_le_of_intakeChange {i j : Intake} (h : IntakeChange i j) (hi : i.queue.length ≤ 256) : j.queue.length ≤ 256 := by
  cases h with
  | kept | strobe | accountRead | malformed | badFrame | lost => exact hi
  | reset | softReset => exact Nat.zero_le _
  | admitted d room =>
    have : (admitDescriptor i d).queue.length = i.queue.length + 1 := List.length_append
    rw [this]
    exact room
  | linkApplied port up rest front =>
    have hq : (setPathOfPort (removeFront i rest) port (pathAfterLink (pathOfPort i port) up)).queue = rest := by
      cases port <;> rfl
    rw [front, List.length_cons] at hi
    rw [hq]
    omega
  | frameTaken f rest _ front counted =>
    rw [front, List.length_cons] at hi
    rw [queue_of_frameCounted counted]
    exact Nat.le_of_succ_le hi

/-- Settles O10: every change that a command makes to the Intake keeps the account and the bound. -/
theorem everyStepKeepsTheIntakeLaws : Obligations.EveryStepKeepsTheIntakeLaws := by
  constructor
  · rw [countersLaw_eq]
    exact keptByEveryStep_of_intakeChange (fun i => Balanced i.counters) fun _ _ => balanced_of_intakeChange
  · exact keptByEveryStep_of_intakeChange (fun i => i.queue.length ≤ 256) fun _ _ => queue_le_of_intakeChange

/-! ### A run of the link (R1, R3, R4, R7, R8) -/

theorem exec_descriptorRun {s : State} (hr : Running s) (bytes : List Byte) :
    exec (.descriptorRun bytes) s = .next (takeRun bytes s) :=
  congrArg Host.Outcome.next (whenRunning_running _ s hr)

section

variable {s : State} {bytes : List Byte} (hr : Running s) (hs : s.intake.staleRun = false)

include hr hs

/-- A run of a length other than 16 is malformed (R1). -/
theorem exec_descriptorRun_length (hl : bytes.length ≠ 16) :
    exec (.descriptorRun bytes) s = .next { s with intake := countMalformed s.intake } := by
  simp [exec_descriptorRun hr, takeRun, hs, hl]

/-- A run of 16 bytes that a test of R3 other than the second rejects is counted in MALFORMED at arrival. -/
theorem exec_descriptorRun_malformed (hl : bytes.length = 16) (hc : checkDescriptor bytes = .malformed) :
    exec (.descriptorRun bytes) s = .next { s with intake := countMalformed s.intake } := by
  simp [exec_descriptorRun hr, takeRun, hs, hl, hc]

/-- A run of 16 bytes that the second test of R3 rejects is counted in BAD_FRAMES. -/
theorem exec_descriptorRun_badFrame (hl : bytes.length = 16) (hc : checkDescriptor bytes = .badFrame) :
    exec (.descriptorRun bytes) s = .next { s with intake := countBadFrame s.intake } := by
  simp [exec_descriptorRun hr, takeRun, hs, hl, hc]

/-- A run of 16 bytes that passes the tests of R3 is offered to the queue. -/
theorem exec_descriptorRun_good {d : Descriptor} (hd : Carries bytes d) :
    exec (.descriptorRun bytes) s = .next (offerDescriptor d s) := by
  obtain ⟨hl, hc⟩ := checkDescriptor_good bytes d hd
  simp [exec_descriptorRun hr, takeRun, hs, hl, hc]

/-- A run begun before the end of INIT ends with nothing counted (R15). -/
theorem exec_descriptorRun_stale :
    exec (.descriptorRun bytes) { s with intake := { s.intake with staleRun := true } } = .next s := by
  have ended : { s with intake := { s.intake with staleRun := false } } = s := by rw [← hs]
  exact (exec_descriptorRun (s := { s with intake := { s.intake with staleRun := true } }) hr bytes).trans
    (congrArg Host.Outcome.next ended)

end

/-- Settles O6: each clause is a test of R1 or R3 that fails first. -/
theorem rejectedRunIsOnlyCounted : Obligations.RejectedRunIsOnlyCounted := by
  intro s bytes hr hs
  exact
    ⟨exec_descriptorRun_length hr hs,
     fun hl h1 h2 => exec_descriptorRun_malformed hr hs hl (checkDescriptor_badKind bytes h1 h2),
     fun hl h1 h2 => exec_descriptorRun_badFrame hr hs hl (checkDescriptor_badFrame bytes h1 h2),
     fun hl h1 h2 h3 => exec_descriptorRun_malformed hr hs hl (checkDescriptor_badFields bytes h1 h2 h3),
     fun hl h1 h2 => exec_descriptorRun_malformed hr hs hl (checkDescriptor_badLink bytes h1 h2),
     exec_descriptorRun_stale hr hs⟩

theorem offerDescriptor_room (d : Descriptor) (s : State) (h : s.intake.queue.length < 256) :
    offerDescriptor d s =
      hand { s with intake := admitDescriptor s.intake d } .intake (admissionRecords s.intake (cycleNow s)) :=
  if_pos h

theorem offerDescriptor_full (d : Descriptor) (s : State) (h : 256 ≤ s.intake.queue.length) :
    offerDescriptor d s = { s with intake := loseDescriptor s.intake } :=
  if_neg (Nat.not_lt.mpr h)

/-- Settles O7: a good run is offered to the queue, which has room or is full. -/
theorem goodRunIsAdmittedOrLost : Obligations.GoodRunIsAdmittedOrLost := by
  intro s bytes d hr hs hd
  rw [exec_descriptorRun_good hr hs hd]
  constructor
  · intro room
    rw [offerDescriptor_room d s room]
    rfl -- the admission is written out as the statement has it
  · intro full
    rw [offerDescriptor_full d s full]
    unfold loseDescriptor
    cases s.intake.episode <;> rfl

/-! ### A link change at the front of the queue (R5, R9 to R11) -/

/-- LINK_APPLY with a LINK descriptor at the front: the path takes the report, its records are handed over, the rest stays. -/
theorem exec_linkApply_link {s : State} {port : RingPort} {up : Bool} {rest : List Descriptor} (hr : Running s)
    (hc : s.classifier = none) (hq : s.intake.queue = .link port up :: rest) :
    exec .linkApply s = .next (hand
      { s with intake := setPathOfPort (withoutFront s.intake rest) port (pathAfterLink (pathOfPort s.intake port) up) } .intake
      (linkRecords s.monitor.cycleCount port (pathOfPort s.intake port) up)) := by
  have happly : exec .linkApply s = .next (applyLink s) := congrArg Host.Outcome.next (whenRunning_running _ s hr)
  rw [happly]
  unfold applyLink
  rw [hc, hq]
  rfl

theorem exec_linkApply_waits {s : State} (hc : s.classifier ≠ none) : exec .linkApply s = .next s := by
  have waits : applyLink s = s := by
    unfold applyLink
    split
    · next h _ => exact absurd h hc
    · rfl
  exact congrArg Host.Outcome.next (whenRunning_eq_self waits)

theorem exec_frameTake_waits {s : State} (hc : s.classifier ≠ none) (u : Upset) : exec (.frameTake u) s = .next s :=
  congrArg Host.Outcome.next (whenRunning_eq_self (takeFrame_waits u s (.inl hc)))

theorem setPathOfPort_same (i : Intake) (rest : List Descriptor) (port : RingPort) :
    setPathOfPort (withoutFront i rest) port (pathOfPort i port) = withoutFront i rest := by
  cases port <;> rfl

/-- A report of the state that the path has already only leaves the queue (R10, R11). -/
theorem exec_linkApply_same {s : State} {port : RingPort} {rest : List Descriptor} (hr : Running s) (hc : s.classifier = none)
    (hq : s.intake.queue = .link port (pathOfPort s.intake port).up :: rest) :
    exec .linkApply s = .next { s with intake := withoutFront s.intake rest } := by
  rw [exec_linkApply_link hr hc hq, pathAfterLink_same, setPathOfPort_same]
  simp [linkRecords]

/-- A report that changes the path's state (R10, R11). -/
theorem exec_linkApply_change {s : State} {port : RingPort} {up : Bool} {rest : List Descriptor} (hr : Running s)
    (hc : s.classifier = none) (hq : s.intake.queue = .link port up :: rest) (hp : (pathOfPort s.intake port).up ≠ up) :
    exec .linkApply s = .next { s with
      intake := setPathOfPort (withoutFront s.intake rest) port (pathAfterLink (pathOfPort s.intake port) up),
      appends := s.appends ++ [appendOf .intake (plainCondition s.monitor.cycleCount (if up then .pathUp else .pathDown)
        (ringPortNumber port + 256 * (pathAfterLink (pathOfPort s.intake port) up).epoch.toNat))] } := by
  rw [exec_linkApply_link hr hc hq]
  simp only [linkRecords, if_neg hp]
  rfl

theorem pathAfterLink_down {path : RingPath} (h : path.up = true) :
    pathAfterLink path false = { up := false, epoch := path.epoch + 1 } := by
  simp [pathAfterLink, h]

theorem pathAfterLink_up (path : RingPath) : pathAfterLink path true = { up := true, epoch := path.epoch } := by
  simp [pathAfterLink]

/-- Settles O8: by the state of the path and the report; with a frame in the Classifier's hands nothing leaves the queue. -/
theorem linkChangeIsAppliedToItsPath : Obligations.LinkChangeIsAppliedToItsPath := by
  refine ⟨fun s port up rest hr hc hq => ⟨?down, ?downAgain, ?up, ?upAgain⟩,
    fun s hc => ⟨exec_linkApply_waits hc, exec_frameTake_waits hc⟩, rfl, rfl⟩
  case down =>
    rintro rfl hp
    rw [exec_linkApply_change hr hc hq (by simp [hp]), pathAfterLink_down hp]
    rfl
  case downAgain =>
    rintro rfl hp
    exact exec_linkApply_same hr hc (hp ▸ hq)
  case up =>
    rintro rfl hp
    rw [exec_linkApply_change hr hc hq (by simp [hp]), pathAfterLink_up]
    rfl
  case upAgain =>
    rintro rfl hp
    exact exec_linkApply_same hr hc (hp ▸ hq)

/-! ### READ-INTAKE (R14) -/

/-- Settles O9: the block's work on the request in hand is the snapshot of the Intake, whose bytes are those of the account. -/
theorem readIntakeReturnsItsAccount : Obligations.ReadIntakeReturnsItsAccount := by
  intro s p h c data
  have bytes : intakeBytes s.intake = data := List.append_assoc _ _ _
  have served : serve .readIntake p (noArgs readIntake) s
      = answered { s with intake := { s.intake with frameCount := none } } p (.okData data) := by
    rw [serve_inHand h .readIntake rfl, noArgs_nil, ← bytes]
    exact giveAnswer_taken { s with intake := { s.intake with frameCount := none } } p _
  exact ⟨congrArg Host.Outcome.next served, by simp [data]⟩

end Sys2Proof.Safety
end

section
/-! SUPPORT. The frame of every command: the parts of the state that it can touch, said once; every other part it leaves whole. -/

namespace Sys2Proof.Machine

/-! ### Footprints -/

/-- Which parts of the state a command can touch. The queue of commands is none of them. -/
structure Footprint where
  startup : Bool := false
  intake : Bool := false
  monitor : Bool := false
  table : Bool := false
  classifier : Bool := false
  rating : Bool := false
  sweep : Bool := false
  log : Bool := false
  watch : Bool := false
  lock : Bool := false
  queues : Bool := false
  ports : Bool := false
  appends : Bool := false
  posted : Bool := false
  statusEvents : Bool := false
  portResets : Bool := false
  softResets : Bool := false

/-- Going from `s` to `t` changes nothing outside a footprint. -/
structure Within (f : Footprint) (s t : State) : Prop where
  pending : t.pending = s.pending
  startup : f.startup = false → t.startup = s.startup
  intake : f.intake = false → t.intake = s.intake
  monitor : f.monitor = false → t.monitor = s.monitor
  table : f.table = false → t.table = s.table
  classifier : f.classifier = false → t.classifier = s.classifier
  rating : f.rating = false → t.rating = s.rating
  sweep : f.sweep = false → t.sweep = s.sweep
  log : f.log = false → t.log = s.log
  watch : f.watch = false → t.watch = s.watch
  lock : f.lock = false → t.lock = s.lock
  queues : f.queues = false → t.queues = s.queues
  ports : f.ports = false → t.ports = s.ports
  appends : f.appends = false → t.appends = s.appends
  posted : f.posted = false → t.posted = s.posted
  statusEvents : f.statusEvents = false → t.statusEvents = s.statusEvents
  portResets : f.portResets = false → t.portResets = s.portResets
  softResets : f.softResets = false → t.softResets = s.softResets

theorem Within.refl (f : Footprint) (s : State) : Within f s s := by
  constructor <;> simp

theorem Within.trans {f : Footprint} {s t u : State} (hst : Within f s t) (htu : Within f t u) : Within f s u where
  pending := htu.pending.trans hst.pending
  startup h := (htu.startup h).trans (hst.startup h)
  intake h := (htu.intake h).trans (hst.intake h)
  monitor h := (htu.monitor h).trans (hst.monitor h)
  table h := (htu.table h).trans (hst.table h)
  classifier h := (htu.classifier h).trans (hst.classifier h)
  rating h := (htu.rating h).trans (hst.rating h)
  sweep h := (htu.sweep h).trans (hst.sweep h)
  log h := (htu.log h).trans (hst.log h)
  watch h := (htu.watch h).trans (hst.watch h)
  lock h := (htu.lock h).trans (hst.lock h)
  queues h := (htu.queues h).trans (hst.queues h)
  ports h := (htu.ports h).trans (hst.ports h)
  appends h := (htu.appends h).trans (hst.appends h)
  posted h := (htu.posted h).trans (hst.posted h)
  statusEvents h := (htu.statusEvents h).trans (hst.statusEvents h)
  portResets h := (htu.portResets h).trans (hst.portResets h)
  softResets h := (htu.softResets h).trans (hst.softResets h)

/-- The parts that each command can touch. -/
def touches : Instr → Footprint
  -- RESET and start-up
  | .resetAssert | .resetRelease =>
    { startup := true, intake := true, monitor := true, table := true, classifier := true, rating := true, sweep := true,
      log := true, watch := true, lock := true, queues := true, ports := true, appends := true, posted := true,
      statusEvents := true, portResets := true, softResets := true }
  | .initEnd _ => { startup := true, intake := true, ports := true }
  -- events of the blocks
  | .descriptorRun _ | .linkApply => { intake := true, appends := true }
  | .lineCyclePulse _ | .timerExpiry => { monitor := true, table := true, rating := true, lock := true, appends := true }
  | .silenceCheck _ => { table := true, appends := true }
  | .ratingCycleEvent | .ratingDue => { rating := true }
  | .ratingStep _ => { table := true, rating := true, appends := true }
  | .lockCycleEvent | .leaseExpiry => { lock := true, posted := true }
  | .frameTake _ => { intake := true, table := true, classifier := true, watch := true, appends := true }
  | .watchHandoff => { watch := true, appends := true, posted := true, statusEvents := true }
  | .clearStep _ | .scrubStep _ => { table := true, sweep := true, appends := true, posted := true }
  | .markVisit _ _ => { table := true, ports := true, appends := true }
  | .logAppend _ => { classifier := true, log := true, watch := true, appends := true, posted := true, statusEvents := true }
  | .noticePlace _ => { queues := true, ports := true, posted := true }
  | .statusSourceSet _ _ => { ports := true, statusEvents := true }
  -- the exchange at a port
  | .requestComplete _ _ | .selectRelease _ _ | .selectRefused _ => { ports := true }
  | .blockAnswer _ => { ports := true, portResets := true }
  -- port reset and soft reset
  | .portReset _ => { ports := true, portResets := true }
  | .portResetNotices _ => { queues := true, portResets := true }
  | .portResetMarks _ => { table := true, portResets := true }
  | .portResetLog _ => { log := true, portResets := true }
  | .portResetLock _ => { lock := true, posted := true, portResets := true }
  | .portResetWatch _ => { watch := true, portResets := true }
  | .softReset _ => { ports := true, softResets := true }
  | .softResetNotices _ => { queues := true, softResets := true }
  | .softResetLock _ => { lock := true, softResets := true }
  | .softResetIntake _ _ => { intake := true, softResets := true }
  | .softResetSweep _ => { sweep := true, softResets := true }
  | .softResetRating _ => { rating := true, softResets := true }
  | .softResetWatch _ => { watch := true, softResets := true }
  | .softResetPort _ _ => { ports := true, softResets := true }
  | .softResetLog _ => { log := true, posted := true, statusEvents := true, softResets := true }
  | .softResetVisit _ _ => { table := true, ports := true, appends := true, softResets := true }
  -- commands of the book that change no more than their port
  | .identify _ | .readStatus _ | .clearStatus _ | .setAttention _ | .rearmAttention _ | .listStreams _ | .readStrays _
  | .readSweep _ | .readRating _ | .readLogStatus _ | .readWatch _ | .readCapture _ | .readLock _ | .peekNotice _ =>
    { ports := true }
  -- the other commands of the book
  | .readIntake _ => { intake := true, ports := true }
  | .readTimebase _ _ => { monitor := true, ports := true }
  | .setTimebase _ => { monitor := true, ports := true, appends := true }
  | .defineStream _ | .redefineStream _ _ | .retireStream _ | .readDefinition _ _ | .readWindow _ _ | .readSheet _ _
  | .setGrading _ _ | .readGrades _ _ => { table := true, ports := true, appends := true }
  | .clearStrays _ | .mark _ => { table := true, ports := true }
  | .clearTallies _ | .startScrub _ => { sweep := true, ports := true }
  | .abortSweep _ => { sweep := true, ports := true, appends := true, posted := true }
  | .setRating _ => { rating := true, ports := true }
  | .readLog _ | .seekLog _ | .setSubscription _ => { log := true, ports := true }
  | .eraseLog _ => { log := true, ports := true, posted := true, statusEvents := true }
  | .armWatch _ | .disarmWatch _ => { watch := true, ports := true, posted := true, statusEvents := true }
  | .releaseCapture _ => { watch := true, ports := true }
  | .claimLock _ | .setLease _ => { lock := true, ports := true }
  | .releaseLock _ => { lock := true, ports := true, posted := true }
  | .postNote _ | .takeNotice _ | .flushNotices _ => { queues := true, ports := true }

/-! ### Shared operations -/

section

variable {f : Footprint} {s : State}

theorem within_putPort (hf : f.ports = true) {t : State} (h : Within f s t) (p : Port) (a : Access) :
    Within f s (putPort t p a) :=
  h.trans (by constructor <;> simp [hf])

theorem whenRunning_within {g : State → State} (hg : Within f s (g s)) : Within f s (whenRunning g s) := by
  obtain h | h := whenRunning_cases g s
  · rw [h]; exact .refl f s
  · rw [h]; exact hg

theorem serve_within (hf : f.ports = true) {c : Command} {p : Port} {g : List Byte → State → Served}
    (hg : ∀ args t, Within f t (g args t).1) : Within f s (serve c p g s) :=
  Safety.serve_keeps (Within f s) c p g s (fun _ a h => within_putPort hf h p a) (fun args t h => h.trans (hg args t)) (.refl f s)

theorem underLock_within {p : Port} {g : List Byte → State → Served} (hg : ∀ args t, Within f t (g args t).1)
    (args : List Byte) (s : State) : Within f s (underLock p g args s).1 :=
  Safety.underLock_keeps (Within f s) p g args s (fun args t h => h.trans (hg args t)) (.refl f s)

theorem noArgs_within {g : State → Served} (hg : ∀ t, Within f t (g t).1) (args : List Byte) (s : State) :
    Within f s (noArgs g args s).1 :=
  Safety.noArgs_keeps (Within f s) g args s (fun t h => h.trans (hg t)) (.refl f s)

theorem failAccess_within (ht : f.table = true) (ha : f.appends = true) (cycle : Word) (n : Nat) (sl : Slot) (code : Nat) :
    Within f s (failAccess s cycle n sl code) := by
  constructor <;> simp [failAccess, ht, ha]

theorem putSlot_within (ht : f.table = true) (n : Nat) (sl : Slot) : Within f s (putSlot s n sl) := by
  constructor <;> simp [ht]

theorem onRecord_within (ht : f.table = true) (ha : f.appends = true) (n : Nat) (upset : Bool) {g : Slot → State → Served}
    (hg : ∀ sl t, Within f t (g sl t).1) : Within f s (onRecord n upset g s).1 := by
  have found : Within f s (putSlot s n (disturb upset (slotAt s.table n))) := putSlot_within ht n _
  unfold onRecord
  dsimp only
  split
  · exact found
  split
  · exact found
  split
  · exact found.trans (hg _ _)
  · exact found.trans (failAccess_within ht ha _ n _ 6)

end

/-! ### The Observation Link (01) -/

section

variable (s : State)

theorem takeRun_within (bytes : List Byte) : Within (touches (.descriptorRun bytes)) s (takeRun bytes s) := by
  unfold takeRun offerDescriptor
  repeat' split
  all_goals constructor <;> simp [touches]

theorem applyLink_within : Within (touches .linkApply) s (applyLink s) := by
  unfold applyLink
  dsimp only
  repeat' split
  all_goals constructor <;> simp [touches]

end

/-! ### The Cycle Monitor (02) -/

section

variable (s : State)

theorem takePulse_within (dt : Nat) : Within (touches (.lineCyclePulse dt)) s (takePulse dt s) := by
  unfold takePulse pulseAcquiring pulseLocked pulseHoldover
  dsimp only
  repeat' split
  all_goals constructor <;> simp [touches, recordTimebase, makeCycleEvent, handCycleEvent]

theorem takeExpiry_within : Within (touches .timerExpiry) s (takeExpiry s) := by
  unfold takeExpiry expireLocked expireHoldover endHoldoverAtLimit
  repeat' split
  all_goals constructor <;> simp [touches, enterUnlocked, recordTimebase, makeCycleEvent, handCycleEvent]

theorem setTimebase_within (p : Port) (args : List Byte) : Within (touches (.setTimebase p)) s (setTimebase p args s).1 := by
  unfold setTimebase
  repeat' split
  all_goals constructor <;> simp [touches]

end

/-! ### The Stream Table (03) -/

section

variable (s : State) (p : Port) (args : List Byte) (upset : Bool)

theorem defineStream_within : Within (touches (.defineStream p)) s (defineStream p args s).1 := by
  unfold defineStream installStream
  repeat' split
  all_goals constructor <;> simp [touches]

theorem redefineStream_within : Within (touches (.redefineStream p upset)) s (redefineStream upset args s).1 := by
  unfold redefineStream
  split
  · exact .refl _ s
  · refine onRecord_within rfl rfl _ _ fun sl t => ?_
    unfold redefineSlot
    split
    · exact putSlot_within rfl _ _
    · exact .refl _ t

theorem retireStream_within : Within (touches (.retireStream p)) s (retireStream p args s).1 := by
  unfold retireStream
  dsimp only
  repeat' split
  all_goals constructor <;> simp [touches]

theorem readDefinition_within : Within (touches (.readDefinition p upset)) s (readDefinition upset args s).1 := by
  unfold readDefinition
  split
  · exact .refl _ s
  · exact onRecord_within rfl rfl _ _ fun _ t => .refl _ t

theorem readWindow_within : Within (touches (.readWindow p upset)) s (readWindow upset args s).1 := by
  unfold readWindow
  split
  · exact .refl _ s
  · exact onRecord_within rfl rfl _ _ fun _ t => .refl _ t

theorem listStreams_within : Within (touches (.listStreams p)) s (listStreams args s).1 := by
  unfold listStreams
  dsimp only
  repeat' split
  all_goals constructor <;> simp [touches]

theorem readStrays_within : Within (touches (.readStrays p)) s (readStrays args s).1 := by
  unfold readStrays
  dsimp only
  repeat' split
  all_goals constructor <;> simp [touches]

theorem stepSilence_within (u : Upset) : Within (touches (.silenceCheck u)) s (stepSilence u s) := by
  unfold stepSilence visitSilence checkSilence
  dsimp only
  repeat' split
  all_goals constructor <;> simp [touches, failAccess]

end

/-! ### The Classifier (04) -/

section

variable (s : State)

theorem takeFrame_within (u : Upset) : Within (touches (.frameTake u)) s (takeFrame u s) := by
  unfold takeFrame classifyFrame takeStray takeForSlot takeIntoRecord makeHandoff
  dsimp only
  repeat' split
  all_goals constructor <;> simp [touches, failAccess, countFaultedDiscard, countMalformedClass]

end

/-! ### Tallies, marks and sweeps (05) -/

section

variable (s : State) (p : Port) (args : List Byte) (upset : Bool)

theorem startMark_within : Within (touches (.mark p)) s (startMark p args s).1 := by
  unfold startMark
  repeat' split
  all_goals constructor <;> simp [touches]

theorem stepMark_within : Within (touches (.markVisit p upset)) s (stepMark p upset s) := by
  unfold stepMark visitMark advanceMark
  dsimp only
  repeat' split
  all_goals constructor <;> simp [touches, failAccess]

theorem readSheet_within : Within (touches (.readSheet p upset)) s (readSheet p upset args s).1 := by
  unfold readSheet
  dsimp only
  split
  · exact onRecord_within rfl rfl _ _ fun _ t => .refl _ t
  · exact .refl _ s

theorem startSweep_within (kind : SweepKind) : Within (touches (.startScrub p)) s (startSweep kind p args s).1 := by
  unfold startSweep
  repeat' split
  all_goals constructor <;> simp [touches]

theorem stepClear_within : Within (touches (.clearStep upset)) s (stepClear upset s) := by
  unfold stepClear visitClear advanceSweep finishSweep
  dsimp only
  repeat' split
  all_goals constructor <;> simp [touches, failAccess]

theorem stepScrub_within : Within (touches (.scrubStep upset)) s (stepScrub upset s) := by
  unfold stepScrub visitScrub advanceSweep finishSweep
  dsimp only
  repeat' split
  all_goals constructor <;> simp [touches, failAccess]

theorem abortSweep_within : Within (touches (.abortSweep p)) s (abortSweep p s).1 := by
  unfold abortSweep
  repeat' split
  all_goals constructor <;> simp [touches]

end

/-! ### Grades (06) -/

section

variable (s : State) (p : Port) (args : List Byte) (upset : Bool)

theorem takeRatingEvent_within : Within (touches .ratingCycleEvent) s (takeRatingEvent s) := by
  unfold takeRatingEvent
  repeat' split
  all_goals constructor <;> simp [touches]

theorem stepRating_within (u : Upset) : Within (touches (.ratingStep u)) s (stepRating u s) := by
  unfold stepRating visitRating rateSlot
  dsimp only
  repeat' split
  all_goals constructor <;> simp [touches, failAccess]

theorem setGrading_within : Within (touches (.setGrading p upset)) s (setGrading upset args s).1 := by
  unfold setGrading
  split
  · exact .refl _ s
  · exact onRecord_within rfl rfl _ _ fun _ _ => putSlot_within rfl _ _

theorem setRating_within : Within (touches (.setRating p)) s (setRating args s).1 := by
  unfold setRating
  repeat' split
  all_goals constructor <;> simp [touches]

theorem readGrades_within : Within (touches (.readGrades p upset)) s (readGrades upset args s).1 := by
  unfold readGrades
  split
  · exact .refl _ s
  · exact onRecord_within rfl rfl _ _ fun _ t => .refl _ t

end

/-! ### The Condition Log (07) -/

section

variable (s : State) (p : Port) (args : List Byte)

theorem takeLogAppend_within (src : LogSource) : Within (touches (.logAppend src)) s (takeLogAppend src s) := by
  unfold takeLogAppend releaseHandoff
  dsimp only
  repeat' split
  all_goals constructor <;> simp [touches, appendRecord]

theorem readLog_within : Within (touches (.readLog p)) s (readLog p args s).1 := by
  unfold readLog
  dsimp only
  repeat' split
  all_goals constructor <;> simp [touches]

theorem seekLog_within : Within (touches (.seekLog p)) s (seekLog p args s).1 := by
  unfold seekLog
  dsimp only
  repeat' split
  all_goals constructor <;> simp [touches]

theorem setSubscription_within : Within (touches (.setSubscription p)) s (setSubscription p args s).1 := by
  unfold setSubscription
  repeat' split
  all_goals constructor <;> simp [touches]

end

/-! ### The Watch Block (08) -/

section

variable (s : State) (p : Port) (args : List Byte)

theorem offerToCapture_within (h : Handoff) : Within (touches .watchHandoff) s (offerToCapture h s) := by
  unfold offerToCapture extendCapture
  dsimp only
  repeat' split
  all_goals constructor <;> simp [touches, completeCapture]

theorem fireUnit_within (u : UnitId) (c : Tally) (h : Handoff) : Within (touches .watchHandoff) s (fireUnit u c h s).1 := by
  unfold fireUnit startCapture extendCapture markFired
  dsimp only
  repeat' split
  all_goals constructor <;> simp [touches, completeCapture]

theorem serveUnits_within (units : PerUnit WatchUnit) (h : Handoff) (us : List UnitId) :
    Within (touches .watchHandoff) s (serveUnits units h us s).1 := by
  induction us generalizing s with
  | nil => exact .refl _ s
  | cons u rest ih =>
    unfold serveUnits
    split
    · next remaining _ =>
      have counted : Within (touches .watchHandoff) s (countUnit u remaining s) := by
        constructor <;> simp [touches, countUnit]
      exact counted.trans (ih _)
    · next c _ => exact (fireUnit_within s u c h).trans (ih _)

theorem stepHandoff_within : Within (touches .watchHandoff) s (stepHandoff s) := by
  have handed (cs : List Condition) (t : State) : Within (touches .watchHandoff) t (hand t .watchBlock cs) := by
    constructor <;> simp [touches]
  unfold stepHandoff
  split
  · exact .refl _ s
  · next h rest _ =>
    have taken : Within (touches .watchHandoff) s { s with watch := { s.watch with handoffs := rest } } := by
      constructor <;> simp [touches]
    exact ((taken.trans (offerToCapture_within _ h)).trans (serveUnits_within _ _ h _)).trans (handed _ _)

theorem endCaptureOf_within (u : UnitId) : Within (touches (.armWatch p)) s (endCaptureOf u s) := by
  unfold endCaptureOf
  repeat' split
  all_goals constructor <;> simp [touches, completeCapture]

theorem setUnit_within (u : UnitId) (w : WatchUnit) : Within (touches (.armWatch p)) s (setUnit s u w) := by
  constructor <;> simp [touches]

theorem armUnit_within (a : ArmArgs) : Within (touches (.armWatch p)) s (armUnit p a s) := by
  have ended := endCaptureOf_within s p a.unit
  unfold armUnit
  dsimp only
  split
  · exact ((ended.trans (endCaptureOf_within _ p _)).trans (setUnit_within _ p _ _)).trans (setUnit_within _ p _ _)
  split
  · exact (ended.trans (setUnit_within _ p _ _)).trans (setUnit_within _ p _ _)
  · exact ended.trans (setUnit_within _ p _ _)

theorem armWatch_within : Within (touches (.armWatch p)) s (armWatch p args s).1 := by
  unfold armWatch
  split
  · exact .refl _ s
  split
  · exact .refl _ s
  split
  · exact .refl _ s
  · exact armUnit_within s p _

theorem freeUnit_within (u : UnitId) : Within (touches (.disarmWatch p)) s (freeUnit u s) := by
  have ended := endCaptureOf_within s p u
  unfold freeUnit
  split
  · exact ended.trans (setUnit_within _ p _ _)
  · exact ((ended.trans (endCaptureOf_within _ p _)).trans (setUnit_within _ p _ _)).trans (setUnit_within _ p _ _)

theorem disarmWatch_within : Within (touches (.disarmWatch p)) s (disarmWatch p args s).1 := by
  unfold disarmWatch
  split
  · exact .refl _ s
  split
  · exact .refl _ s
  split
  · exact freeUnit_within s p _
  · exact .refl _ s

theorem readWatch_within : Within (touches (.readWatch p)) s (readWatch args s).1 := by
  unfold readWatch
  repeat' split
  all_goals constructor <;> simp [touches]

theorem readCapture_within : Within (touches (.readCapture p)) s (readCapture p args s).1 := by
  unfold readCapture
  dsimp only
  repeat' split
  all_goals constructor <;> simp [touches]

theorem releaseCapture_within : Within (touches (.releaseCapture p)) s (releaseCapture p s).1 := by
  unfold releaseCapture
  repeat' split
  all_goals constructor <;> simp [touches]

end

/-! ### The Access Ports (09) -/

section

variable (s : State) (p : Port) (args : List Byte)

theorem answerPort_within : Within (touches (.blockAnswer p)) s (answerPort p s) := by
  unfold answerPort
  dsimp only
  repeat' split
  all_goals constructor <;> simp [touches]

theorem takeStatusSource_within (l : Latch) : Within (touches (.statusSourceSet p l)) s (takeStatusSource p l s) := by
  unfold takeStatusSource
  repeat' split
  all_goals constructor <;> simp [touches]

theorem clearStatus_within : Within (touches (.clearStatus p)) s (clearStatus p args s).1 := by
  unfold clearStatus
  repeat' split
  all_goals constructor <;> simp [touches]

theorem setAttention_within : Within (touches (.setAttention p)) s (setAttention p args s).1 := by
  unfold setAttention
  repeat' split
  all_goals constructor <;> simp [touches]

end

/-! ### The tally lock (10) -/

section

variable (s : State) (p : Port) (args : List Byte)

theorem takeLockEvent_within : Within (touches .lockCycleEvent) s (takeLockEvent s) := by
  unfold takeLockEvent countLease expireLease passLock
  repeat' split
  all_goals constructor <;> simp [touches]

theorem claimLock_within : Within (touches (.claimLock p)) s (claimLock p args s).1 := by
  unfold claimLock claimHeld
  repeat' split
  all_goals constructor <;> simp [touches]

theorem releaseLock_within : Within (touches (.releaseLock p)) s (releaseLock p s).1 := by
  unfold releaseLock passLock
  repeat' split
  all_goals constructor <;> simp [touches]

theorem setLease_within : Within (touches (.setLease p)) s (setLease args s).1 := by
  unfold setLease
  dsimp only
  repeat' split
  all_goals constructor <;> simp [touches]

theorem resetLockPort_within : Within (touches (.portResetLock p)) s (resetLockPort p s) := by
  unfold resetLockPort passLock
  repeat' split
  all_goals constructor <;> simp [touches]

end

/-! ### The notice queues (10) -/

section

variable (s : State) (p : Port) (args : List Byte)

theorem takeDeviceNotice_within (src : NoticeSource) : Within (touches (.noticePlace src)) s (takeDeviceNotice src s) := by
  unfold takeDeviceNotice placeDeviceNotice
  repeat' split
  all_goals constructor <;> simp [touches, overflowNotice, placeNotice]

theorem placeNotice_within (q : Port) (n : Notice) : Within (touches (.postNote p)) s (placeNotice s q n) := by
  constructor <;> simp [touches, placeNotice]

theorem placeNotices_within (n : Notice) (ports : List Port) :
    Within (touches (.postNote p)) s (ports.foldl (fun t q => placeNotice t q n) s) := by
  induction ports generalizing s with
  | nil => exact .refl _ s
  | cons q rest ih => exact (placeNotice_within s p q n).trans (ih _)

theorem postNote_within : Within (touches (.postNote p)) s (postNote p args s).1 := by
  unfold postNote postToOne postToAll
  dsimp only
  split
  · split
    · split
      · exact placeNotice_within s p _ _
      · exact .refl _ s
    · exact placeNotices_within s p _ _
  · exact .refl _ s

theorem peekNotice_within : Within (touches (.peekNotice p)) s (peekNotice p s).1 := by
  unfold peekNotice
  repeat' split
  all_goals constructor <;> simp [touches]

theorem takeNotice_within : Within (touches (.takeNotice p)) s (takeNotice p s).1 := by
  unfold takeNotice
  repeat' split
  all_goals constructor <;> simp [touches]

theorem flushNotices_within : Within (touches (.flushNotices p)) s (flushNotices p s).1 := by
  unfold flushNotices
  repeat' split
  all_goals constructor <;> simp [touches]

end

/-! ### Every command -/

/-- The frame of the machine: every command answers a next state, and changes nothing outside the parts that it touches. -/
theorem exec_within (c : Instr) (s : State) : ∃ t, exec c s = .next t ∧ Within (touches c) s t := by
  cases c with
  -- RESET and start-up, a block's part of a reset, and the bytes and the select line of a port
  | resetAssert | resetRelease | initEnd | portResetNotices | portResetMarks | portResetLog | portResetWatch | softResetNotices
  | softResetLock | softResetIntake | softResetSweep | softResetRating | softResetWatch | softResetPort | requestComplete
  | selectRelease | selectRefused =>
    refine ⟨_, rfl, ?_⟩
    repeat' split
    all_goals constructor <;> simp [touches, endInit]
  | softResetLog =>
    refine ⟨_, rfl, ?_⟩
    repeat' split
    all_goals constructor <;> simp [touches, softResetLog, appendRecord]
  | softResetVisit =>
    refine ⟨_, rfl, ?_⟩
    repeat' split
    all_goals constructor <;> simp [touches, visitTable]
  | portResetLock p =>
    refine ⟨_, rfl, ?_⟩
    split
    · next parts _ =>
      split
      · exact .refl _ s
      · have begun : Within (touches (.portResetLock p)) s
            { s with portResets := s.portResets.set p (some { parts with lock := true }) } := by
          constructor <;> simp [touches]
        exact begun.trans (resetLockPort_within _ p)
    · exact .refl _ s
  -- events of the blocks
  | descriptorRun bytes => exact ⟨_, rfl, whenRunning_within (takeRun_within s bytes)⟩
  | linkApply => exact ⟨_, rfl, whenRunning_within (applyLink_within s)⟩
  | lineCyclePulse dt => exact ⟨_, rfl, whenRunning_within (takePulse_within s dt)⟩
  | timerExpiry => exact ⟨_, rfl, whenRunning_within (takeExpiry_within s)⟩
  | silenceCheck u => exact ⟨_, rfl, whenRunning_within (stepSilence_within s u)⟩
  | ratingCycleEvent => exact ⟨_, rfl, whenRunning_within (takeRatingEvent_within s)⟩
  | ratingDue =>
    refine ⟨_, rfl, whenRunning_within ?_⟩
    split
    · exact .refl _ s
    · exact takeRatingEvent_within s
  | ratingStep u => exact ⟨_, rfl, whenRunning_within (stepRating_within s u)⟩
  | lockCycleEvent => exact ⟨_, rfl, whenRunning_within (takeLockEvent_within s)⟩
  | leaseExpiry =>
    refine ⟨_, rfl, whenRunning_within ?_⟩
    split
    · exact takeLockEvent_within s
    · exact .refl _ s
  | frameTake u => exact ⟨_, rfl, whenRunning_within (takeFrame_within s u)⟩
  | watchHandoff => exact ⟨_, rfl, whenRunning_within (stepHandoff_within s)⟩
  | clearStep upset => exact ⟨_, rfl, whenRunning_within (stepClear_within s upset)⟩
  | scrubStep upset => exact ⟨_, rfl, whenRunning_within (stepScrub_within s upset)⟩
  | markVisit p upset => exact ⟨_, rfl, whenRunning_within (stepMark_within s p upset)⟩
  | logAppend src => exact ⟨_, rfl, whenRunning_within (takeLogAppend_within s src)⟩
  | noticePlace src => exact ⟨_, rfl, whenRunning_within (takeDeviceNotice_within s src)⟩
  | statusSourceSet p l => exact ⟨_, rfl, whenRunning_within (takeStatusSource_within s p l)⟩
  | blockAnswer p => exact ⟨_, rfl, answerPort_within s p⟩
  -- commands of the book without arguments
  | identify | readStatus | readSweep | readRating | readLogStatus | readLock =>
    exact ⟨_, rfl, serve_within rfl (noArgs_within fun t => .refl _ t)⟩
  | readIntake | readTimebase | rearmAttention | portReset =>
    refine ⟨_, rfl, serve_within rfl (noArgs_within fun t => ?_)⟩
    constructor <;> simp [touches, readIntake, readTimebase, rearmAttention, portReset]
  | softReset | clearStrays =>
    refine ⟨_, rfl, serve_within rfl (underLock_within (noArgs_within fun t => ?_))⟩
    constructor <;> simp [touches, softReset, clearStrays]
  | eraseLog =>
    refine ⟨_, rfl, ?_⟩
    split
    · exact .refl _ s
    · refine serve_within rfl (underLock_within (noArgs_within fun t => ?_))
      constructor <;> simp [touches, eraseLog, appendRecord]
  | abortSweep p => exact ⟨_, rfl, serve_within rfl (noArgs_within fun t => abortSweep_within t p)⟩
  | releaseCapture p => exact ⟨_, rfl, serve_within rfl (noArgs_within fun t => releaseCapture_within t p)⟩
  | releaseLock p => exact ⟨_, rfl, serve_within rfl (noArgs_within fun t => releaseLock_within t p)⟩
  | peekNotice p => exact ⟨_, rfl, serve_within rfl (noArgs_within fun t => peekNotice_within t p)⟩
  | takeNotice p => exact ⟨_, rfl, serve_within rfl (noArgs_within fun t => takeNotice_within t p)⟩
  | flushNotices p => exact ⟨_, rfl, serve_within rfl (noArgs_within fun t => flushNotices_within t p)⟩
  -- commands of the book with arguments
  | setTimebase p => exact ⟨_, rfl, serve_within rfl (underLock_within fun args t => setTimebase_within t p args)⟩
  | defineStream p => exact ⟨_, rfl, serve_within rfl (underLock_within fun args t => defineStream_within t p args)⟩
  | redefineStream p upset => exact ⟨_, rfl, serve_within rfl (underLock_within fun args t => redefineStream_within t p args upset)⟩
  | retireStream p => exact ⟨_, rfl, serve_within rfl (underLock_within fun args t => retireStream_within t p args)⟩
  | clearTallies p => exact ⟨_, rfl, serve_within rfl (underLock_within fun args t => startSweep_within t p args .clear)⟩
  | setGrading p upset => exact ⟨_, rfl, serve_within rfl (underLock_within fun args t => setGrading_within t p args upset)⟩
  | setRating p => exact ⟨_, rfl, serve_within rfl (underLock_within fun args t => setRating_within t p args)⟩
  | setLease p => exact ⟨_, rfl, serve_within rfl (underLock_within fun args t => setLease_within t p args)⟩
  | clearStatus p => exact ⟨_, rfl, serve_within rfl fun args t => clearStatus_within t p args⟩
  | setAttention p => exact ⟨_, rfl, serve_within rfl fun args t => setAttention_within t p args⟩
  | readDefinition p upset => exact ⟨_, rfl, serve_within rfl fun args t => readDefinition_within t p args upset⟩
  | listStreams p => exact ⟨_, rfl, serve_within rfl fun args t => listStreams_within t p args⟩
  | readStrays p => exact ⟨_, rfl, serve_within rfl fun args t => readStrays_within t p args⟩
  | readWindow p upset => exact ⟨_, rfl, serve_within rfl fun args t => readWindow_within t p args upset⟩
  | mark p => exact ⟨_, rfl, serve_within rfl fun args t => startMark_within t p args⟩
  | readSheet p upset => exact ⟨_, rfl, serve_within rfl fun args t => readSheet_within t p args upset⟩
  | startScrub p => exact ⟨_, rfl, serve_within rfl fun args t => startSweep_within t p args .scrub⟩
  | readGrades p upset => exact ⟨_, rfl, serve_within rfl fun args t => readGrades_within t p args upset⟩
  | readLog p => exact ⟨_, rfl, serve_within rfl fun args t => readLog_within t p args⟩
  | seekLog p => exact ⟨_, rfl, serve_within rfl fun args t => seekLog_within t p args⟩
  | setSubscription p => exact ⟨_, rfl, serve_within rfl fun args t => setSubscription_within t p args⟩
  | armWatch p => exact ⟨_, rfl, serve_within rfl fun args t => armWatch_within t p args⟩
  | disarmWatch p => exact ⟨_, rfl, serve_within rfl fun args t => disarmWatch_within t p args⟩
  | readWatch p => exact ⟨_, rfl, serve_within rfl fun args t => readWatch_within t p args⟩
  | readCapture p => exact ⟨_, rfl, serve_within rfl fun args t => readCapture_within t p args⟩
  | claimLock p => exact ⟨_, rfl, serve_within rfl fun args t => claimLock_within t p args⟩
  | postNote p => exact ⟨_, rfl, serve_within rfl fun args t => postNote_within t p args⟩

end Sys2Proof.Machine
end

section
/-! SUPPORT. The Cycle Monitor case by case: what a pulse, an expiry and the passing of time make of the state, in the words of
Safety.lean. -/

namespace Sys2Proof.Machine

open Sys2Proof.Safety

/-! ### A pulse (R21 to R24, R26) -/

section

variable {s : State} {dt e : Nat} {t : Timer}

theorem takePulse_unlocked (hs : s.monitor.state = .unlocked) :
    takePulse dt s = setTimebaseState s (.acquiring (pulseTimer s.monitor)) := by
  simp [takePulse, hs]

theorem takePulse_acquiring (hs : s.monitor.state = .acquiring t) (hd : t.elapsed + dt ≤ t.deadline) :
    takePulse dt s = pulseAcquiring (t.elapsed + dt) s := by
  simp [takePulse, hs, hd]

theorem takePulse_locked (hs : s.monitor.state = .locked t) (hd : t.elapsed + dt ≤ t.deadline) :
    takePulse dt s = pulseLocked (t.elapsed + dt) s := by
  simp [takePulse, hs, hd]

theorem takePulse_holdover (hs : s.monitor.state = .holdover t) (hd : t.elapsed + dt ≤ t.deadline) :
    takePulse dt s = pulseHoldover (t.elapsed + dt) s := by
  simp [takePulse, hs, hd]

/-- A pulse past the deadline of a running timer does not take place (notes/assumptions/4). -/
theorem takePulse_past (ht : timerOf s.monitor.state = some t) (hd : ¬t.elapsed + dt ≤ t.deadline) : takePulse dt s = s := by
  cases hs : s.monitor.state with
  | unlocked => simp [hs, timerOf] at ht
  | acquiring u | locked u | holdover u =>
    obtain rfl : u = t := by simpa [hs, timerOf] using ht
    simp [takePulse, hs, hd]

theorem pulseAcquiring_near (he : e < s.monitor.cycleLength - s.monitor.tolerance) :
    pulseAcquiring e s = setTimebaseState s (.acquiring (pulseTimer s.monitor)) :=
  if_pos he

theorem pulseAcquiring_confirms (he : s.monitor.cycleLength - s.monitor.tolerance ≤ e) :
    pulseAcquiring e s =
      recordTimebase (withCycleEvent (setTimebaseState s (.locked (pulseTimer s.monitor)))) .timebaseLocked 0 :=
  if_neg (Nat.not_lt.mpr he)

/-- An early mark (R24). -/
theorem pulseLocked_early (he : e < s.monitor.cycleLength - s.monitor.tolerance) :
    pulseLocked e s = recordTimebase (withCycleEvent { s with monitor := { s.monitor with
      state := .locked (pulseTimer s.monitor), earlyMarks := up1 s.monitor.earlyMarks } }) .markEarly e :=
  if_pos he

theorem pulseLocked_onTime (he : s.monitor.cycleLength - s.monitor.tolerance ≤ e) :
    pulseLocked e s = withCycleEvent (setTimebaseState s (.locked (pulseTimer s.monitor))) :=
  if_neg (Nat.not_lt.mpr he)

/-- The pulse replaces the last synthesized event (R26). -/
theorem pulseHoldover_replaces (he : e ≤ s.monitor.tolerance) :
    pulseHoldover e s =
      recordTimebase (setRun (setTimebaseState s (.locked (pulseTimer s.monitor))) 0) .timebaseLocked (s.monitor.run + 256) :=
  if_pos he

theorem pulseHoldover_makesEvent (he : s.monitor.tolerance < e) :
    pulseHoldover e s =
      recordTimebase (withCycleEvent (setRun (setTimebaseState s (.locked (pulseTimer s.monitor))) 0)) .timebaseLocked
        s.monitor.run :=
  if_neg (Nat.not_le.mpr he)

end

/-! ### An expiry (R22, R25) -/

section

variable {s : State} {t : Timer}

theorem takeExpiry_unlocked (hs : s.monitor.state = .unlocked) : takeExpiry s = s := by
  simp [takeExpiry, hs]

theorem takeExpiry_acquiring (hs : s.monitor.state = .acquiring t) : takeExpiry s = enterUnlocked s := by
  simp [takeExpiry, hs]

theorem takeExpiry_locked (hs : s.monitor.state = .locked t) : takeExpiry s = expireLocked s := by
  simp [takeExpiry, hs]

theorem takeExpiry_holdover (hs : s.monitor.state = .holdover t) : takeExpiry s = expireHoldover s := by
  simp [takeExpiry, hs]

theorem endHoldoverAtLimit_below (h : s.monitor.run < s.monitor.holdoverLimit) : endHoldoverAtLimit s = s := if_pos h

theorem endHoldoverAtLimit_reached (h : s.monitor.holdoverLimit ≤ s.monitor.run) :
    endHoldoverAtLimit s = recordTimebase (enterUnlocked s) .timebaseLost 1 :=
  if_neg (Nat.not_lt.mpr h)

end

end Sys2Proof.Machine
end

section
/-! SUPPORT. The statements of chapter 02, the line timebase. -/

namespace Sys2Proof.Safety

open Sys2Proof.Machine

/-! ### The law of the timebase, state by state (R18, R21, R25, R28) -/

/-- The parameters in force lie in their ranges (R28). -/
def ParametersOk (m : Monitor) : Prop :=
  50 ≤ m.cycleLength ∧ m.cycleLength ≤ 65535 ∧ 1 ≤ m.tolerance ∧ m.tolerance ≤ m.cycleLength / 4 ∧ 1 ≤ m.holdoverLimit
    ∧ m.holdoverLimit ≤ 255

theorem timebaseLaw_of_monitor {s t : State} (h : t.monitor = s.monitor) (hl : TimebaseLaw s) : TimebaseLaw t := by
  unfold TimebaseLaw
  rw [h]
  exact hl

section

variable {s : State} {t : Timer}

theorem timebaseLaw_unlocked (hs : s.monitor.state = .unlocked) :
    TimebaseLaw s ↔ ParametersOk s.monitor ∧ s.monitor.run = 0 := by
  simp only [TimebaseLaw, ParametersOk, hs, and_assoc]

theorem timebaseLaw_acquiring (hs : s.monitor.state = .acquiring t) :
    TimebaseLaw s ↔
      ParametersOk s.monitor ∧ s.monitor.run = 0 ∧ TimerWithin t (s.monitor.cycleLength + s.monitor.tolerance) := by
  simp only [TimebaseLaw, ParametersOk, hs, and_assoc]

theorem timebaseLaw_locked (hs : s.monitor.state = .locked t) :
    TimebaseLaw s ↔
      ParametersOk s.monitor ∧ s.monitor.run = 0 ∧ TimerWithin t (s.monitor.cycleLength + s.monitor.tolerance) := by
  simp only [TimebaseLaw, ParametersOk, hs, and_assoc]

theorem timebaseLaw_holdover (hs : s.monitor.state = .holdover t) :
    TimebaseLaw s ↔ ParametersOk s.monitor ∧ 1 ≤ s.monitor.run ∧ s.monitor.run < s.monitor.holdoverLimit
      ∧ TimerWithin t s.monitor.cycleLength := by
  simp only [TimebaseLaw, ParametersOk, hs, and_assoc]

end

theorem parametersOk_of_timebaseLaw {s : State} (hl : TimebaseLaw s) : ParametersOk s.monitor := by
  cases hs : s.monitor.state with
  | unlocked => exact ((timebaseLaw_unlocked hs).mp hl).1
  | acquiring => exact ((timebaseLaw_acquiring hs).mp hl).1
  | locked => exact ((timebaseLaw_locked hs).mp hl).1
  | holdover => exact ((timebaseLaw_holdover hs).mp hl).1

theorem timebaseLaw_reset : TimebaseLaw State.reset := by
  have parameters : ParametersOk Monitor.reset := by unfold ParametersOk; decide
  exact (timebaseLaw_unlocked rfl).mpr ⟨parameters, rfl⟩

/-- A timer that has just been started has not passed its deadline. -/
theorem timerWithin_start (deadline : Nat) : TimerWithin { elapsed := 0, deadline := deadline } deadline :=
  ⟨rfl, Nat.zero_le _⟩

theorem timerWithin_advance {t : Timer} {deadline : Nat} (dt : Nat) (ht : TimerWithin t deadline) :
    TimerWithin { t with elapsed := min t.deadline (t.elapsed + dt) } deadline :=
  ⟨ht.1, Nat.le_trans (Nat.min_le_left _ _) (Nat.le_of_eq ht.1)⟩

/-! ### Every change of the Cycle Monitor keeps the law -/

section

variable {s : State}

theorem pulseAcquiring_keeps_timebaseLaw (e : Nat) (hp : ParametersOk s.monitor) (hr : s.monitor.run = 0) :
    TimebaseLaw (pulseAcquiring e s) := by
  obtain he | he := Nat.lt_or_ge e (s.monitor.cycleLength - s.monitor.tolerance)
  · rw [pulseAcquiring_near he]
    exact (timebaseLaw_acquiring rfl).mpr ⟨hp, hr, timerWithin_start _⟩
  · rw [pulseAcquiring_confirms he]
    exact (timebaseLaw_locked rfl).mpr ⟨hp, hr, timerWithin_start _⟩

theorem pulseLocked_keeps_timebaseLaw (e : Nat) (hp : ParametersOk s.monitor) (hr : s.monitor.run = 0) :
    TimebaseLaw (pulseLocked e s) := by
  obtain he | he := Nat.lt_or_ge e (s.monitor.cycleLength - s.monitor.tolerance)
  · rw [pulseLocked_early he]
    exact (timebaseLaw_locked rfl).mpr ⟨hp, hr, timerWithin_start _⟩
  · rw [pulseLocked_onTime he]
    exact (timebaseLaw_locked rfl).mpr ⟨hp, hr, timerWithin_start _⟩

theorem pulseHoldover_keeps_timebaseLaw (e : Nat) (hp : ParametersOk s.monitor) : TimebaseLaw (pulseHoldover e s) := by
  obtain he | he := Nat.lt_or_ge s.monitor.tolerance e
  · rw [pulseHoldover_makesEvent he]
    exact (timebaseLaw_locked rfl).mpr ⟨hp, rfl, timerWithin_start _⟩
  · rw [pulseHoldover_replaces he]
    exact (timebaseLaw_locked rfl).mpr ⟨hp, rfl, timerWithin_start _⟩

theorem takePulse_keeps_timebaseLaw (dt : Nat) (hl : TimebaseLaw s) : TimebaseLaw (takePulse dt s) := by
  have hp := parametersOk_of_timebaseLaw hl
  cases hs : s.monitor.state with
  | unlocked =>
    obtain ⟨_, hr⟩ := (timebaseLaw_unlocked hs).mp hl
    rw [takePulse_unlocked hs]
    exact (timebaseLaw_acquiring rfl).mpr ⟨hp, hr, timerWithin_start _⟩
  | acquiring t =>
    by_cases hd : t.elapsed + dt ≤ t.deadline
    · obtain ⟨_, hr, _⟩ := (timebaseLaw_acquiring hs).mp hl
      rw [takePulse_acquiring hs hd]
      exact pulseAcquiring_keeps_timebaseLaw _ hp hr
    · rwa [takePulse_past (by rw [hs]; rfl) hd]
  | locked t =>
    by_cases hd : t.elapsed + dt ≤ t.deadline
    · obtain ⟨_, hr, _⟩ := (timebaseLaw_locked hs).mp hl
      rw [takePulse_locked hs hd]
      exact pulseLocked_keeps_timebaseLaw _ hp hr
    · rwa [takePulse_past (by rw [hs]; rfl) hd]
  | holdover t =>
    by_cases hd : t.elapsed + dt ≤ t.deadline
    · rw [takePulse_holdover hs hd]
      exact pulseHoldover_keeps_timebaseLaw _ hp
    · rwa [takePulse_past (by rw [hs]; rfl) hd]

theorem enterUnlocked_timebaseLaw (hp : ParametersOk s.monitor) : TimebaseLaw (enterUnlocked s) :=
  (timebaseLaw_unlocked rfl).mpr ⟨hp, rfl⟩

/-- A state of HOLDOVER that is lawful but for its run: the test of the limit brings the run below it (R25). -/
theorem endHoldoverAtLimit_timebaseLaw (hs : s.monitor.state = .holdover (expiryTimer s.monitor)) (hp : ParametersOk s.monitor)
    (hr : 1 ≤ s.monitor.run) : TimebaseLaw (endHoldoverAtLimit s) := by
  obtain hlimit | hlimit := Nat.lt_or_ge s.monitor.run s.monitor.holdoverLimit
  · rw [endHoldoverAtLimit_below hlimit]
    exact (timebaseLaw_holdover hs).mpr ⟨hp, hr, hlimit, timerWithin_start _⟩
  · rw [endHoldoverAtLimit_reached hlimit]
    exact timebaseLaw_of_monitor rfl (enterUnlocked_timebaseLaw hp)

theorem takeExpiry_keeps_timebaseLaw (hl : TimebaseLaw s) : TimebaseLaw (takeExpiry s) := by
  have hp := parametersOk_of_timebaseLaw hl
  cases hs : s.monitor.state with
  | unlocked => rwa [takeExpiry_unlocked hs]
  | acquiring =>
    rw [takeExpiry_acquiring hs]
    exact enterUnlocked_timebaseLaw hp
  | locked =>
    rw [takeExpiry_locked hs]
    exact endHoldoverAtLimit_timebaseLaw rfl hp (Nat.le_refl 1)
  | holdover =>
    rw [takeExpiry_holdover hs]
    exact endHoldoverAtLimit_timebaseLaw rfl hp (Nat.le_add_left 1 _)

theorem advanceTimer_keeps_timebaseLaw (dt : Nat) (hl : TimebaseLaw s) :
    TimebaseLaw { s with monitor := { s.monitor with state := advanceTimer dt s.monitor.state } } := by
  cases hs : s.monitor.state with
  | unlocked => exact (timebaseLaw_unlocked rfl).mpr ((timebaseLaw_unlocked hs).mp hl)
  | acquiring =>
    obtain ⟨hp, hr, ht⟩ := (timebaseLaw_acquiring hs).mp hl
    exact (timebaseLaw_acquiring rfl).mpr ⟨hp, hr, timerWithin_advance dt ht⟩
  | locked =>
    obtain ⟨hp, hr, ht⟩ := (timebaseLaw_locked hs).mp hl
    exact (timebaseLaw_locked rfl).mpr ⟨hp, hr, timerWithin_advance dt ht⟩
  | holdover =>
    obtain ⟨hp, hr, hlimit, ht⟩ := (timebaseLaw_holdover hs).mp hl
    exact (timebaseLaw_holdover rfl).mpr ⟨hp, hr, hlimit, timerWithin_advance dt ht⟩

/-- The parameters that SET-TIMEBASE installs (R28). -/
theorem timebaseArgs_some {args : List Byte} {l t limit : Nat} (h : timebaseArgs args = some (l, t, limit)) :
    50 ≤ l ∧ l ≤ 65535 ∧ 1 ≤ t ∧ t ≤ l / 4 ∧ 1 ≤ limit ∧ limit ≤ 255 := by
  have hl := fieldAt_lt args 0 2
  have hlimit := fieldAt_lt args 4 1
  simp only [timebaseArgs, Option.ite_none_right_eq_some, Option.some.injEq, Prod.mk.injEq] at h
  obtain ⟨⟨_, hl50, ht1, ht4, hlimit1⟩, rfl, rfl, rfl⟩ := h
  omega

theorem setTimebase_keeps_timebaseLaw (p : Port) (args : List Byte) (hl : TimebaseLaw s) :
    TimebaseLaw (setTimebase p args s).1 := by
  unfold setTimebase
  split
  · exact hl
  · next hargs => exact (timebaseLaw_unlocked rfl).mpr ⟨timebaseArgs_some hargs, rfl⟩

/-- Every command keeps the law: outside RESET and the rows of chapter 02 none touches the Cycle Monitor. -/
theorem exec_keeps_timebaseLaw (c : Instr) (hl : TimebaseLaw s) : ∃ t, exec c s = .next t ∧ TimebaseLaw t := by
  have port (p : Port) (t : State) (a : Access) (ht : TimebaseLaw t) : TimebaseLaw (putPort t p a) :=
    timebaseLaw_of_monitor rfl ht
  cases hc : (touches c).monitor with
  | false =>
    obtain ⟨t, ht, within⟩ := exec_within c s
    exact ⟨t, ht, timebaseLaw_of_monitor (within.monitor hc) hl⟩
  | true =>
    cases c with
    | resetAssert => exact ⟨_, rfl, timebaseLaw_of_monitor rfl timebaseLaw_reset⟩
    | resetRelease =>
      refine ⟨_, rfl, ?_⟩
      split
      · exact timebaseLaw_of_monitor rfl timebaseLaw_reset
      · exact hl
    | lineCyclePulse dt => exact ⟨_, rfl, whenRunning_keeps _ _ s (fun _ => takePulse_keeps_timebaseLaw dt) hl⟩
    | timerExpiry => exact ⟨_, rfl, whenRunning_keeps _ _ s (fun _ => takeExpiry_keeps_timebaseLaw) hl⟩
    | readTimebase p dt =>
      exact ⟨_, rfl, serve_keeps _ _ p _ s (port p) (fun args t ht =>
        noArgs_keeps _ _ args t (fun _ => advanceTimer_keeps_timebaseLaw dt) ht) hl⟩
    | setTimebase p =>
      exact ⟨_, rfl, serve_keeps _ _ p _ s (port p) (fun args t ht =>
        underLock_keeps _ p _ args t (fun args _ => setTimebase_keeps_timebaseLaw p args) ht) hl⟩
    | _ => cases hc

end

/-- Settles O16: the law is one of the Cycle Monitor alone, and each of the monitor's own events keeps it. -/
theorem everyStepKeepsTheTimebaseLaw : Obligations.EveryStepKeepsTheTimebaseLaw := by
  refine keptByEveryStep_of _ (fun _ _ hl => timebaseLaw_of_monitor rfl hl) (fun _ => advanceTimer_keeps_timebaseLaw 1)
    fun c s t hl ht => ?_
  obtain ⟨u, hu, keeps⟩ := exec_keeps_timebaseLaw c hl
  obtain rfl : u = t := Host.Outcome.next.inj (hu.symm.trans ht)
  exact keeps

/-! ### The pulses and the expiries of a running block (R21 to R26) -/

theorem exec_lineCyclePulse {s : State} (hr : Running s) (dt : Nat) : exec (.lineCyclePulse dt) s = .next (takePulse dt s) :=
  congrArg Host.Outcome.next (whenRunning_running _ s hr)

theorem exec_timerExpiry {s : State} (hr : Running s) : exec .timerExpiry s = .next (takeExpiry s) :=
  congrArg Host.Outcome.next (whenRunning_running _ s hr)

/-- Settles O11: by the state, and in ACQUIRING by the distance from the pulse before. -/
theorem pulsesAcquireTheTimebase : Obligations.PulsesAcquireTheTimebase := by
  intro s dt hr start
  rw [exec_lineCyclePulse hr]
  refine ⟨fun hs => ?unlocked, fun t hs hd => ⟨fun he => ?near, fun he => ?confirms⟩⟩
  case unlocked =>
    rw [takePulse_unlocked hs]
    rfl
  case near =>
    rw [takePulse_acquiring hs hd, pulseAcquiring_near he]
    rfl
  case confirms =>
    rw [takePulse_acquiring hs hd, pulseAcquiring_confirms he]
    rfl

/-- Settles O12: the deadline of LOCKED is L + T, so a pulse up to it takes place. -/
theorem pulseOnTimeInLockedIsALineCycle : Obligations.PulseOnTimeInLockedIsALineCycle := by
  intro s dt t hr hs hdeadline hlow hhigh
  rw [exec_lineCyclePulse hr, takePulse_locked hs (hdeadline ▸ hhigh), pulseLocked_onTime hlow]
  rfl

/-- Settles O13: an early mark in LOCKED, and in HOLDOVER a pulse up to T after the last synthesized event or later. -/
theorem pulsesThatAreEarlyOrEndHoldover : Obligations.PulsesThatAreEarlyOrEndHoldover := by
  intro s dt t hr hd start e
  rw [exec_lineCyclePulse hr]
  refine ⟨fun hs he => ?early, fun hs he => ?replaces, fun hs he => ?makesEvent⟩
  case early =>
    rw [takePulse_locked hs hd, pulseLocked_early he]
    rfl
  case replaces =>
    rw [takePulse_holdover hs hd, pulseHoldover_replaces he]
    rfl
  case makesEvent =>
    rw [takePulse_holdover hs hd, pulseHoldover_makesEvent he]
    rfl

/-- Settles O14: by the state, and with a synthesized event by whether the run reaches the limit. -/
theorem expiriesSynthesizeCycleEventsUpToTheLimit : Obligations.ExpiriesSynthesizeCycleEventsUpToTheLimit := by
  intro s t hr again count entered lost
  rw [exec_timerExpiry hr]
  refine ⟨fun hs => ?acquiring, fun hs hlimit => ?enters, fun hs hlimit => ?entersAndEnds, fun hs hlimit => ?stays,
    fun hs hlimit => ?ends⟩
  case acquiring =>
    rw [takeExpiry_acquiring hs]
    rfl
  case enters =>
    rw [takeExpiry_locked hs, expireLocked, endHoldoverAtLimit_below hlimit]
    rfl
  case entersAndEnds =>
    have twoAccesses : s.appends ++ [entered, lost] = s.appends ++ [entered] ++ [lost] := by simp
    rw [takeExpiry_locked hs, expireLocked, endHoldoverAtLimit_reached (Nat.le_of_eq hlimit), twoAccesses]
    rfl
  case stays =>
    rw [takeExpiry_holdover hs, expireHoldover, endHoldoverAtLimit_below hlimit]
    rfl
  case ends =>
    rw [takeExpiry_holdover hs, expireHoldover, endHoldoverAtLimit_reached (Nat.le_of_eq hlimit.symm)]
    rfl

/-! ### SET-TIMEBASE and READ-TIMEBASE (R28, R30) -/

/-- The five argument bytes of SET-TIMEBASE carry L, T and the holdover limit, if they lie in their ranges (R28). -/
theorem timebaseArgs_layout {l t limit : Nat} (hl : l ≤ 65535) (ht : t ≤ 65535) (hlimit : limit ≤ 255) :
    timebaseArgs (leBytes 2 l ++ leBytes 2 t ++ leBytes 1 limit) =
      if 50 ≤ l ∧ 1 ≤ t ∧ t ≤ l / 4 ∧ 1 ≤ limit then some (l, t, limit) else none := by
  obtain ⟨fieldL, fieldT⟩ := fieldAt_two 2 2 l t (by omega) (by omega)
  have fl : fieldAt (leBytes 2 l ++ leBytes 2 t ++ leBytes 1 limit) 0 2 = l := by
    rw [fieldAt_append_left _ _ _ _ (by simp), fieldL]
  have ft : fieldAt (leBytes 2 l ++ leBytes 2 t ++ leBytes 1 limit) 2 2 = t := by
    rw [fieldAt_append_left _ _ _ _ (by simp), fieldT]
  have flimit : fieldAt (leBytes 2 l ++ leBytes 2 t ++ leBytes 1 limit) 4 1 = limit := by
    rw [fieldAt_append_right _ _ _ _ (by simp)]
    exact fieldAt_leBytes 1 limit (by omega)
  have length : (leBytes 2 l ++ leBytes 2 t ++ leBytes 1 limit).length = 5 := by simp
  simp only [timebaseArgs, length, fl, ft, flimit, true_and, Nat.one_le_iff_ne_zero]

theorem timebaseArgs_length {args : List Byte} (h : args.length ≠ 5) : timebaseArgs args = none :=
  if_neg fun hargs => h hargs.1

section

variable {s : State} {p : Port} {args : List Byte} (hh : Holds s p) (hi : InHand s p 0x0c args)

include hh hi

theorem exec_setTimebase_refused (hargs : timebaseArgs args = none) :
    exec (.setTimebase p) s = .next (answered s p (.bare .badValue)) := by
  refine congrArg Host.Outcome.next (serve_inHand_answer hi .setTimebase rfl _ _ ?_)
  rw [underLock_holds _ _ _ _ (holdsLock_taken hh), setTimebase, hargs]
  rfl

theorem exec_setTimebase_installs {l t limit : Nat} (hargs : timebaseArgs args = some (l, t, limit)) :
    exec (.setTimebase p) s = .next (answered
      (handHolding
        { s with monitor := { s.monitor with state := .unlocked, run := 0, cycleLength := l, tolerance := t,
                                             holdoverLimit := limit } }
        .cycleMonitor p (timebaseLostRecords s)) p (.bare .ok)) := by
  refine congrArg Host.Outcome.next ?_
  rw [serve_inHand hi .setTimebase rfl, underLock_holds _ _ _ _ (holdsLock_taken hh), setTimebase, hargs,
    ← giveAnswer_taken]
  rfl

end

theorem exec_readTimebase {s : State} {p : Port} (dt : Nat) (hi : InHand s p 0x0b []) :
    exec (.readTimebase p dt) s = .next (answered
      { s with monitor := { s.monitor with state := advanceTimer dt s.monitor.state } } p
      (.okData (timebaseBytes { s.monitor with state := advanceTimer dt s.monitor.state }))) := by
  refine congrArg Host.Outcome.next ?_
  rw [serve_inHand hi .readTimebase rfl, noArgs_nil, ← giveAnswer_taken]
  rfl

/-- Settles O15: SET-TIMEBASE by its arguments and by the state that it leaves, READ-TIMEBASE by the state that it reads. -/
theorem timebaseIsSetAndRead : Obligations.TimebaseIsSetAndRead := by
  refine ⟨fun s p l t limit hh hl ht hlimit hi => ?_, fun s p args hh hi hlength => ?refused, fun s p dt hi => ?read⟩
  · intro set lost
    have hargs := timebaseArgs_layout hl ht hlimit
    refine ⟨fun inRange => ?installed, fun outOfRange => ?outOfRange⟩
    case installed =>
      rw [exec_setTimebase_installs hh hi (hargs.trans (if_pos inRange))]
      cases hs : s.monitor.state with
      | unlocked | acquiring =>
        have none_lost : timebaseLostRecords s = [] := by simp [timebaseLostRecords, hs]
        rw [none_lost, handHolding_nil]
      | locked | holdover =>
        have one_lost : timebaseLostRecords s = [plainCondition s.monitor.cycleCount .timebaseLost 2] := by
          simp [timebaseLostRecords, hs, cycleNow]
        rw [one_lost]
        rfl
    case outOfRange => exact exec_setTimebase_refused hh hi (hargs.trans (if_neg outOfRange))
  case refused => exact exec_setTimebase_refused hh hi (timebaseArgs_length hlength)
  case read =>
    rw [exec_readTimebase dt hi]
    cases s.monitor.state <;> rfl

/-! ### A microsecond on an empty queue (R17, R18) -/

/-- Settles O2: the timer, if it runs, counts one microsecond as far as its deadline. -/
theorem emptyQueueCountsOneMicrosecond : Obligations.EmptyQueueCountsOneMicrosecond := by
  intro s hq
  have idle : step s = .next (tickMicrosecond s) := by simp [step, hq]
  rw [idle, tickMicrosecond]
  cases s.monitor.state <;> rfl

end Sys2Proof.Safety
end

section
/-! SUPPORT. The argument formats of DEFINE-STREAM, REDEFINE-STREAM, SET-GRADING and ARM-WATCH: each reader accepts exactly the
bytes of a value in its range, said part by part in the order of Operands.lean. -/

namespace Sys2Proof.Safety

open Sys2Proof.Machine

/-! ### Bytes and fields -/

theorem eq_append_iff_take_drop {l a b : List Byte} : l = a ++ b ↔ l.take a.length = a ∧ l.drop a.length = b := by
  constructor
  · rintro rfl
    exact ⟨List.take_left, List.drop_left⟩
  · rintro ⟨front, back⟩
    rw [← List.take_append_drop a.length l, front, back]

/-- Writing the number that bytes spell gives the bytes. -/
theorem leBytes_leNat (bytes : List Byte) : leBytes bytes.length (leNat bytes) = bytes := by
  induction bytes with
  | nil => rfl
  | cons b rest ih =>
    have hb := b.isLt
    have byte : BitVec.ofNat 8 (b.toNat + 256 * leNat rest) = b :=
      BitVec.eq_of_toNat_eq (by rw [BitVec.toNat_ofNat]; omega)
    have others : (b.toNat + 256 * leNat rest) / 256 = leNat rest := by omega
    rw [List.length_cons, leNat, leBytes, byte, others, ih]

theorem fieldAt_drop (bytes : List Byte) (k j n : Nat) : fieldAt (bytes.drop k) j n = fieldAt bytes (k + j) n := by
  rw [fieldAt, fieldAt, List.drop_drop]

section

variable {bytes rest : List Byte} {n v : Nat} (hv : v < 256 ^ n)

include hv

theorem eq_leBytes_append_iff :
    bytes = leBytes n v ++ rest ↔ n ≤ bytes.length ∧ fieldAt bytes 0 n = v ∧ bytes.drop n = rest := by
  constructor
  · rintro rfl
    exact ⟨by simp, fieldAt_leBytes_append n v rest hv, List.drop_left' (leBytes_length n v)⟩
  · rintro ⟨length, rfl, rfl⟩
    have front := leBytes_leNat (bytes.take n)
    rw [List.length_take_of_le length] at front
    rw [fieldAt, List.drop_zero, front, List.take_append_drop]

theorem eq_leBytes_iff : bytes = leBytes n v ↔ bytes.length = n ∧ fieldAt bytes 0 n = v := by
  rw [← List.append_nil (leBytes n v), eq_leBytes_append_iff hv, List.drop_eq_nil_iff]
  omega

end

theorem flag_eq_leBytes (b : Bool) : [if b then (1 : Byte) else 0] = leBytes 1 (if b then 1 else 0) := by cases b <;> rfl

theorem flag_lt (b : Bool) : (if b then 1 else 0) < 256 ^ 1 := by cases b <;> decide

/-- A flag field of 0 or 1 is the number of the flag that is read from it. -/
theorem flag_field {v : Nat} (h : v ≤ 1) : v = if v == 1 then 1 else 0 := by
  obtain rfl | rfl := Nat.le_one_iff_eq_zero_or_eq_one.mp h <;> rfl

@[simp] theorem flag_read (b : Bool) : ((if b then 1 else 0 : Nat) == 1) = b := by cases b <;> rfl

theorem flag_le (b : Bool) : (if b then 1 else 0 : Nat) ≤ 1 := by cases b <;> decide

/-! ### A definition (R33) -/

theorem definitionArgBytes_length (d : Definition) : (definitionArgBytes d).length = 11 := by simp [definitionArgBytes]

theorem eq_definitionArgBytes_iff {bytes : List Byte} {d : Definition} (h : DefinitionInRange d) :
    bytes = definitionArgBytes d ↔ bytes.length = 11 ∧ fieldAt bytes 0 3 = d.period ∧ fieldAt bytes 3 3 = d.lateWindow
      ∧ fieldAt bytes 6 2 = d.jump ∧ fieldAt bytes 8 1 = (if d.dual then 1 else 0) ∧ fieldAt bytes 9 2 = d.silence := by
  obtain ⟨_, period, late, _, jump, _, silence, _⟩ := h
  rw [definitionArgBytes, flag_eq_leBytes, List.append_assoc, List.append_assoc, List.append_assoc,
    eq_leBytes_append_iff (by omega), eq_leBytes_append_iff (by omega), eq_leBytes_append_iff (by omega),
    eq_leBytes_append_iff (flag_lt _), eq_leBytes_iff (by omega)]
  simp only [fieldAt_drop, List.length_drop, List.drop_drop, Nat.reduceAdd]
  omega

/-- The definition fields are read from exactly the bytes of a definition in range. -/
theorem definitionArgs_iff {bytes : List Byte} {d : Definition} :
    definitionArgs bytes = some d ↔ DefinitionInRange d ∧ bytes = definitionArgBytes d := by
  have period := fieldAt_lt bytes 0 3
  constructor
  · intro h
    simp only [definitionArgs, Option.ite_none_right_eq_some, Option.some.injEq] at h
    obtain ⟨⟨length, low, late, jumpLow, jumpHigh, paths, silenceLow, silenceHigh, product⟩, rfl⟩ := h
    have range : DefinitionInRange
        { period := fieldAt bytes 0 3, lateWindow := fieldAt bytes 3 3, jump := fieldAt bytes 6 2,
          dual := fieldAt bytes 8 1 == 1, silence := fieldAt bytes 9 2 } :=
      ⟨low, Nat.le_of_lt_succ period, late, jumpLow, jumpHigh, silenceLow, silenceHigh, product⟩
    exact ⟨range, (eq_definitionArgBytes_iff range).mpr ⟨length, rfl, rfl, rfl, flag_field paths, rfl⟩⟩
  · rintro ⟨range, h⟩
    obtain ⟨length, hperiod, hlate, hjump, hpaths, hsilence⟩ := (eq_definitionArgBytes_iff range).mp h
    obtain ⟨low, _, late, jumpLow, jumpHigh, silenceLow, silenceHigh, product⟩ := range
    simp only [definitionArgs, hperiod, hlate, hjump, hpaths, hsilence, flag_read]
    exact if_pos ⟨length, low, late, jumpLow, jumpHigh, flag_le _, silenceLow, silenceHigh, product⟩

/-! ### Grade settings (R33) -/

theorem eq_settingArgBytes_iff {bytes : List Byte} {g : GradeSetting} (h : SettingInRange g) :
    bytes = settingArgBytes (some g) ↔ bytes.length = 3 ∧ fieldAt bytes 0 1 = g.threshold ∧ fieldAt bytes 1 1 = g.step
      ∧ fieldAt bytes 2 1 = (if g.urgent then 1 else 0) := by
  obtain ⟨threshold, step⟩ := h
  rw [settingArgBytes, flag_eq_leBytes, List.append_assoc, eq_leBytes_append_iff (by omega), eq_leBytes_append_iff (by omega),
    eq_leBytes_iff (flag_lt _)]
  simp only [fieldAt_drop, List.length_drop, List.drop_drop, Nat.reduceAdd]
  omega

theorem gradeSettingArg_iff {bytes : List Byte} {g : GradeSetting} :
    gradeSettingArg bytes = some g ↔ SettingInRange g ∧ bytes = settingArgBytes (some g) := by
  constructor
  · intro h
    simp only [gradeSettingArg, Option.ite_none_right_eq_some, Option.some.injEq] at h
    obtain ⟨⟨length, threshold, step, urgency⟩, rfl⟩ := h
    have range : SettingInRange
        { threshold := fieldAt bytes 0 1, step := fieldAt bytes 1 1, urgent := fieldAt bytes 2 1 == 1 } := ⟨threshold, step⟩
    exact ⟨range, (eq_settingArgBytes_iff range).mpr ⟨length, rfl, rfl, flag_field urgency⟩⟩
  · rintro ⟨range, h⟩
    obtain ⟨length, hthreshold, hstep, hurgency⟩ := (eq_settingArgBytes_iff range).mp h
    simp only [gradeSettingArg, hthreshold, hstep, hurgency, flag_read]
    exact if_pos ⟨length, range.1, range.2, flag_le _⟩

/-- The settings of one grade leave the front of the bytes when the presence byte names it. -/
theorem takeGradeSetting_iff {named : Bool} {bytes rest : List Byte} {g : Option GradeSetting} :
    takeGradeSetting named bytes = some (g, rest) ↔
      named = g.isSome ∧ (∀ c, g = some c → SettingInRange c) ∧ bytes = settingArgBytes g ++ rest := by
  cases named with
  | false =>
    cases g with
    | none => simp [takeGradeSetting, settingArgBytes]
    | some c => simp [takeGradeSetting]
  | true =>
    cases g with
    | none => simp [takeGradeSetting]
    | some c =>
      have length : (settingArgBytes (some c)).length = 3 := by simp [settingArgBytes]
      rw [eq_append_iff_take_drop, length]
      simp only [takeGradeSetting, if_true, Option.map_eq_some_iff, gradeSettingArg_iff, Prod.mk.injEq, Option.some.injEq,
        Option.isSome_some, true_and]
      constructor
      · rintro ⟨_, ⟨range, front⟩, rfl, back⟩
        exact ⟨fun _ same => same ▸ range, front, back⟩
      · rintro ⟨range, front, back⟩
        exact ⟨c, ⟨range c rfl, front⟩, rfl, back⟩

/-- A presence byte by its bits. -/
theorem presence_iff {presence : Byte} {a b c d : Bool} :
    presence = BitVec.ofNat 8 ((if a then 1 else 0) + (if b then 2 else 0) + (if c then 4 else 0) + (if d then 8 else 0)) ↔
      presence.toNat < 16 ∧ presence.getLsbD 0 = a ∧ presence.getLsbD 1 = b ∧ presence.getLsbD 2 = c
        ∧ presence.getLsbD 3 = d := by
  constructor
  · rintro rfl
    cases a <;> cases b <;> cases c <;> cases d <;> decide
  · rintro ⟨range, rfl, rfl, rfl, rfl⟩
    have weighed (k weight : Nat) : (if k % 2 = 1 then weight else 0) = weight * (k % 2) := by
      obtain h | h := Nat.mod_two_eq_zero_or_one k <;> simp [h]
    refine BitVec.eq_of_toNat_eq ?_
    simp only [← BitVec.testBit_toNat, Nat.testBit_succ, Nat.testBit_zero, decide_eq_true_eq, BitVec.toNat_ofNat, weighed]
    omega

theorem namedInRange_iff {named : PerGrade (Option GradeSetting)} :
    NamedInRange named ↔ (∀ c, named.loss = some c → SettingInRange c) ∧ (∀ c, named.timing = some c → SettingInRange c)
      ∧ (∀ c, named.order = some c → SettingInRange c) ∧ (∀ c, named.path = some c → SettingInRange c) := by
  constructor
  · exact fun h => ⟨h .loss, h .timing, h .order, h .path⟩
  · rintro ⟨loss, timing, order, path⟩ g
    cases g with
    | loss => exact loss
    | timing => exact timing
    | order => exact order
    | path => exact path

theorem presenceArgs_iff {bytes : List Byte} {named : PerGrade (Option GradeSetting)} :
    presenceArgs bytes = some named ↔ NamedInRange named ∧ bytes = presenceArgBytes named := by
  cases bytes with
  | nil => simp [presenceArgs, presenceArgBytes]
  | cons presence rest =>
    rw [namedInRange_iff, presenceArgBytes, List.cons.injEq, presence_iff]
    simp only [presenceArgs, Option.ite_none_right_eq_some, Option.bind_eq_bind, Option.bind_eq_some_iff, Prod.exists,
      takeGradeSetting_iff, Option.some.injEq, List.isEmpty_iff]
    constructor
    · rintro ⟨range, loss, _, ⟨bit0, okLoss, rfl⟩, timing, _, ⟨bit1, okTiming, rfl⟩, order, _, ⟨bit2, okOrder, rfl⟩, path, _,
        ⟨bit3, okPath, rfl⟩, rfl, rfl⟩
      exact ⟨⟨okLoss, okTiming, okOrder, okPath⟩, ⟨range, bit0, bit1, bit2, bit3⟩, by simp⟩
    · rintro ⟨⟨okLoss, okTiming, okOrder, okPath⟩, ⟨range, bit0, bit1, bit2, bit3⟩, rfl⟩
      exact ⟨range, named.loss, _, ⟨bit0, okLoss, by simp only [List.append_assoc]⟩, named.timing, _, ⟨bit1, okTiming, rfl⟩,
        named.order, settingArgBytes named.path, ⟨bit2, okOrder, rfl⟩, named.path, [],
        ⟨bit3, okPath, (List.append_nil _).symm⟩, rfl, rfl⟩

theorem namedInRange_none : NamedInRange (.all none) := fun g c h => by simp at h

theorem optionalPresenceArgs_iff {bytes : List Byte} {named : PerGrade (Option GradeSetting)} :
    optionalPresenceArgs bytes = some named ↔
      NamedInRange named ∧ (bytes = presenceArgBytes named ∨ (named = .all none ∧ bytes = [])) := by
  cases bytes with
  | nil =>
    have : [] ≠ presenceArgBytes named := (List.cons_ne_nil _ _).symm
    simp only [optionalPresenceArgs, List.isEmpty_nil, if_true, Option.some.injEq, this, false_or, and_true]
    exact ⟨fun h => ⟨h ▸ namedInRange_none, h.symm⟩, fun h => h.2.symm⟩
  | cons presence rest =>
    have unfolded : optionalPresenceArgs (presence :: rest) = presenceArgs (presence :: rest) := rfl
    rw [unfolded, presenceArgs_iff]
    simp

/-! ### DEFINE-STREAM, REDEFINE-STREAM and SET-GRADING (R35, R37, R113) -/

theorem slotArg_iff {v n : Nat} : slotArg v = some n ↔ n ≤ 511 ∧ v = n := by
  simp only [slotArg, Option.ite_none_right_eq_some, Option.some.injEq]
  exact ⟨fun ⟨h, e⟩ => ⟨e ▸ h, e⟩, fun ⟨h, e⟩ => ⟨e ▸ h, e⟩⟩

/-- Two bytes of a number, a definition, and the settings that may follow it. -/
theorem definitionWithSettings_iff {args : List Byte} {n : Nat} {d : Definition} {named : PerGrade (Option GradeSetting)}
    (hn : n < 65536) :
    (fieldAt args 0 2 = n ∧ definitionArgs ((args.drop 2).take 11) = some d ∧ optionalPresenceArgs (args.drop 13) = some named) ↔
      DefinitionInRange d ∧ NamedInRange named
        ∧ (args = leBytes 2 n ++ definitionArgBytes d ++ presenceArgBytes named
          ∨ (named = .all none ∧ args = leBytes 2 n ++ definitionArgBytes d)) := by
  have split (tail : List Byte) : args = leBytes 2 n ++ definitionArgBytes d ++ tail ↔
      fieldAt args 0 2 = n ∧ (args.drop 2).take 11 = definitionArgBytes d ∧ args.drop 13 = tail := by
    rw [List.append_assoc, eq_leBytes_append_iff hn, eq_append_iff_take_drop, definitionArgBytes_length, List.drop_drop]
    refine ⟨fun h => h.2, fun ⟨field, front, back⟩ => ⟨?_, field, front, back⟩⟩
    have length := congrArg List.length front
    rw [definitionArgBytes_length, List.length_take, List.length_drop] at length
    omega
  have bare := split []
  rw [List.append_nil] at bare
  rw [definitionArgs_iff, optionalPresenceArgs_iff, split, bare]
  constructor
  · rintro ⟨field, ⟨range, front⟩, ok, back | ⟨none_named, back⟩⟩
    · exact ⟨range, ok, .inl ⟨field, front, back⟩⟩
    · exact ⟨range, ok, .inr ⟨none_named, field, front, back⟩⟩
  · rintro ⟨range, ok, ⟨field, front, back⟩ | ⟨none_named, field, front, back⟩⟩
    · exact ⟨field, ⟨range, front⟩, ok, .inl back⟩
    · exact ⟨field, ⟨range, front⟩, ok, .inr ⟨none_named, back⟩⟩

theorem defineArgs_iff {args : List Byte} {tag : Half} {d : Definition} {named : PerGrade (Option GradeSetting)} :
    defineArgs args = some (tag, d, named) ↔
      ValidTag tag ∧ DefinitionInRange d ∧ NamedInRange named
        ∧ (args = leBytes 2 tag.toNat ++ definitionArgBytes d ++ presenceArgBytes named
          ∨ (named = .all none ∧ args = leBytes 2 tag.toNat ++ definitionArgBytes d)) := by
  have field := fieldAt_lt args 0 2
  have tagField (h : 1 ≤ fieldAt args 0 2 ∧ fieldAt args 0 2 ≤ 65534) :
      BitVec.ofNat 16 (fieldAt args 0 2) = tag ↔ fieldAt args 0 2 = tag.toNat := by
    rw [← BitVec.toNat_inj, BitVec.toNat_ofNat, Nat.mod_eq_of_lt (by omega)]
  rw [← definitionWithSettings_iff tag.isLt]
  unfold defineArgs ValidTag
  dsimp only
  split
  · next d' named' hd hn =>
    simp only [hd, hn, Option.ite_none_right_eq_some, Option.some.injEq, Prod.mk.injEq]
    constructor
    · rintro ⟨range, htag, rfl, rfl⟩
      have e := (tagField range).mp htag
      exact ⟨e ▸ range, e, rfl, rfl⟩
    · rintro ⟨range, e, rfl, rfl⟩
      have range' : 1 ≤ fieldAt args 0 2 ∧ fieldAt args 0 2 ≤ 65534 := e ▸ range
      exact ⟨range', (tagField range').mpr e, rfl, rfl⟩
  · next absent =>
    refine iff_of_false (by simp) fun ⟨_, _, hd, hn⟩ => absent d named hd hn

theorem redefineArgs_iff {args : List Byte} {n : Nat} {d : Definition} {named : PerGrade (Option GradeSetting)} :
    redefineArgs args = some (n, d, named) ↔
      n ≤ 511 ∧ DefinitionInRange d ∧ NamedInRange named
        ∧ (args = leBytes 2 n ++ definitionArgBytes d ++ presenceArgBytes named
          ∨ (named = .all none ∧ args = leBytes 2 n ++ definitionArgBytes d)) := by
  have read : redefineArgs args = some (n, d, named) ↔ slotArg (fieldAt args 0 2) = some n
      ∧ definitionArgs ((args.drop 2).take 11) = some d ∧ optionalPresenceArgs (args.drop 13) = some named := by
    unfold redefineArgs
    split
    · next hs hd hn => simp [hs, hd, hn]
    · next absent => exact iff_of_false (by simp) fun ⟨hs, hd, hn⟩ => absent n d named hs hd hn
  rw [read, slotArg_iff, and_assoc]
  exact and_congr_right fun range => definitionWithSettings_iff (by omega)

theorem gradingArgs_iff {args : List Byte} {n : Nat} {named : PerGrade (Option GradeSetting)} :
    gradingArgs args = some (n, named) ↔ n ≤ 511 ∧ NamedInRange named ∧ args = leBytes 2 n ++ presenceArgBytes named := by
  have read : gradingArgs args = some (n, named) ↔
      slotArg (fieldAt args 0 2) = some n ∧ presenceArgs (args.drop 2) = some named := by
    unfold gradingArgs
    split
    · next hs hn => simp [hs, hn]
    · next absent => exact iff_of_false (by simp) fun ⟨hs, hn⟩ => absent n named hs hn
  rw [read, slotArg_iff, presenceArgs_iff, and_assoc]
  refine and_congr_right fun range => ?_
  rw [eq_leBytes_append_iff (by omega)]
  refine ⟨fun ⟨field, ok, rest⟩ => ⟨ok, ?_, field, rest⟩, fun ⟨ok, _, field, rest⟩ => ⟨field, ok, rest⟩⟩
  -- the presence byte lies behind the slot's two bytes
  have length := congrArg List.length rest
  rw [presenceArgBytes, List.length_cons, List.length_drop] at length
  omega

/-! ### ARM-WATCH (R139) -/

theorem matchingArgBytes_length (m : Matching) : (matchingArgBytes m).length = 7 := by simp [matchingArgBytes]

theorem eq_matchingArgBytes_iff {bytes : List Byte} {m : Matching} :
    bytes = matchingArgBytes m ↔ bytes.length = 7 ∧ fieldAt bytes 0 2 = m.low.toNat ∧ fieldAt bytes 2 2 = m.high.toNat
      ∧ fieldAt bytes 4 1 = (if m.invert then 1 else 0) ∧ fieldAt bytes 5 2 = m.mask.toNat := by
  have mask := m.mask.isLt
  rw [matchingArgBytes, flag_eq_leBytes, List.append_assoc, List.append_assoc, eq_leBytes_append_iff m.low.isLt,
    eq_leBytes_append_iff m.high.isLt, eq_leBytes_append_iff (flag_lt _), eq_leBytes_iff (by omega)]
  simp only [fieldAt_drop, List.length_drop, List.drop_drop, Nat.reduceAdd]
  omega

theorem toNat_ofNat_of_lt {w v : Nat} (h : v < 2 ^ w) : (BitVec.ofNat w v).toNat = v := by
  rw [BitVec.toNat_ofNat, Nat.mod_eq_of_lt h]

theorem matchingArg_iff {bytes : List Byte} {m : Matching} :
    matchingArg bytes = some m ↔ MatchingInRange m ∧ bytes = matchingArgBytes m := by
  have nonzero {mask : BitVec 9} : mask ≠ 0 ↔ 1 ≤ mask.toNat := by
    rw [ne_eq, ← BitVec.toNat_inj]
    exact Nat.one_le_iff_ne_zero.symm
  rw [MatchingInRange, nonzero]
  constructor
  · intro h
    simp only [matchingArg, Option.ite_none_right_eq_some, Option.some.injEq] at h
    obtain ⟨⟨length, low, ordered, high, invert, maskLow, maskHigh⟩, rfl⟩ := h
    have lowField := toNat_ofNat_of_lt (w := 16) (v := fieldAt bytes 0 2) (by omega)
    have highField := toNat_ofNat_of_lt (w := 16) (v := fieldAt bytes 2 2) (by omega)
    have maskField := toNat_ofNat_of_lt (w := 9) (v := fieldAt bytes 5 2) (by omega)
    rw [eq_matchingArgBytes_iff]
    simp only [lowField, highField, maskField]
    exact ⟨⟨low, ordered, high, maskLow⟩, length, trivial, trivial, flag_field invert, trivial⟩
  · rintro ⟨⟨low, ordered, high, mask⟩, h⟩
    obtain ⟨length, hlow, hhigh, hinvert, hmask⟩ := eq_matchingArgBytes_iff.mp h
    simp only [matchingArg, hlow, hhigh, hinvert, hmask, flag_read, BitVec.ofNat_toNat, BitVec.setWidth_eq]
    exact if_pos ⟨length, low, ordered, high, flag_le _, mask, m.mask.isLt⟩

theorem unitOfNumber_iff {v : Nat} {u : UnitId} : unitOfNumber v = some u ↔ v = unitNumber u := by
  unfold unitOfNumber
  split <;> cases u <;> simp_all [unitNumber]

theorem unitNumber_lt (u : UnitId) : unitNumber u < 256 ^ 1 := by cases u <;> decide

/-- The eleven bytes of ARM-WATCH before the pair flag, and what follows them. -/
theorem eq_armHead_iff {args tail : List Byte} {u : UnitId} {own : Matching} {preset captureLength : Nat}
    (hp : preset ≤ 65535) (hc : captureLength ≤ 64) :
    args = leBytes 1 (unitNumber u) ++ matchingArgBytes own ++ leBytes 2 preset ++ leBytes 1 captureLength ++ tail ↔
      fieldAt args 0 1 = unitNumber u ∧ (args.drop 1).take 7 = matchingArgBytes own ∧ fieldAt args 8 2 = preset
        ∧ fieldAt args 10 1 = captureLength ∧ 11 ≤ args.length ∧ args.drop 11 = tail := by
  rw [List.append_assoc, List.append_assoc, List.append_assoc, eq_leBytes_append_iff (unitNumber_lt u),
    eq_append_iff_take_drop, matchingArgBytes_length, eq_leBytes_append_iff (by omega), eq_leBytes_append_iff (by omega)]
  simp only [fieldAt_drop, List.length_drop, List.drop_drop, Nat.reduceAdd]
  constructor
  · rintro ⟨_, hu, hown, _, hpreset, _, hcapture, rest⟩
    exact ⟨hu, hown, hpreset, hcapture, by omega, rest⟩
  · rintro ⟨hu, hown, hpreset, hcapture, length, rest⟩
    exact ⟨by omega, hu, hown, by omega, hpreset, by omega, hcapture, rest⟩

/-- A unit armed alone has nothing behind its pair flag. -/
theorem unpaired_iff {args : List Byte} :
    11 ≤ args.length ∧ args.drop 11 = [0] ↔ args.length = 12 ∧ fieldAt args 11 1 = 0 := by
  have : ([0] : List Byte) = leBytes 1 0 := rfl
  rw [this, eq_leBytes_iff (by decide), fieldAt_drop, Nat.add_zero, List.length_drop]
  omega

/-- A pair has its partner's seven bytes behind its pair flag. -/
theorem paired_iff {args : List Byte} {m : Matching} :
    11 ≤ args.length ∧ args.drop 11 = [1] ++ matchingArgBytes m ↔
      args.length = 19 ∧ fieldAt args 11 1 = 1 ∧ args.drop 12 = matchingArgBytes m := by
  have : ([1] : List Byte) = leBytes 1 1 := rfl
  rw [this, eq_leBytes_append_iff (by decide), fieldAt_drop, List.length_drop, List.drop_drop]
  constructor
  · rintro ⟨_, _, flag, partner⟩
    have length := congrArg List.length partner
    rw [matchingArgBytes_length, List.length_drop] at length
    exact ⟨by omega, flag, partner⟩
  · rintro ⟨length, flag, partner⟩
    exact ⟨by omega, by omega, flag, partner⟩

theorem armArgs_iff {args : List Byte} {a : ArmArgs} : armArgs args = some a ↔ ArmArgsInRange a ∧ args = armArgBytes a := by
  have preset := fieldAt_lt args 8 2
  constructor
  · intro h
    unfold armArgs at h
    dsimp only at h
    split at h
    next unit own hu hown =>
      obtain ⟨ownRange, ownBytes⟩ := matchingArg_iff.mp hown
      have unitField := unitOfNumber_iff.mp hu
      obtain ⟨⟨presetLow, captureHigh⟩, h⟩ := Option.ite_none_right_eq_some.mp h
      have presetHigh := Nat.le_of_lt_succ preset
      split at h
      · next single =>
        cases h
        obtain ⟨length, tail⟩ := unpaired_iff.mpr single
        exact ⟨⟨ownRange, presetLow, presetHigh, captureHigh, fun _ none_some => by cases none_some⟩,
          (eq_armHead_iff presetHigh captureHigh).mpr ⟨unitField, ownBytes, rfl, rfl, length, tail⟩⟩
      · obtain ⟨⟨length, flag, even⟩, h⟩ := Option.ite_none_right_eq_some.mp h
        obtain ⟨m, hm, rfl⟩ := Option.map_eq_some_iff.mp h
        obtain ⟨partnerRange, partnerBytes⟩ := matchingArg_iff.mp hm
        obtain ⟨length, tail⟩ := paired_iff.mpr ⟨length, flag, partnerBytes⟩
        refine ⟨⟨ownRange, presetLow, presetHigh, captureHigh, fun m' some_some => ?_⟩,
          (eq_armHead_iff presetHigh captureHigh).mpr ⟨unitField, ownBytes, rfl, rfl, length, tail⟩⟩
        cases some_some
        exact ⟨partnerRange, even⟩
    next => cases h
  · obtain ⟨unit, own, preset, captureLength, partner⟩ := a
    rintro ⟨⟨ownRange, presetLow, presetHigh, captureHigh, partnerOk⟩, bytes⟩
    obtain ⟨unitField, ownBytes, hpreset, hcapture, tail⟩ := (eq_armHead_iff presetHigh captureHigh).mp bytes
    simp only [armArgs, unitOfNumber_iff.mpr unitField, matchingArg_iff.mpr ⟨ownRange, ownBytes⟩, hpreset, hcapture]
    rw [if_pos ⟨presetLow, captureHigh⟩]
    cases partner with
    | none => rw [if_pos (unpaired_iff.mp tail)]
    | some m =>
      obtain ⟨length, flag, partnerBytes⟩ := paired_iff.mp tail
      obtain ⟨partnerRange, even⟩ := partnerOk m rfl
      rw [if_neg (by omega), if_pos ⟨length, flag, even⟩, matchingArg_iff.mpr ⟨partnerRange, partnerBytes⟩]
      rfl

end Sys2Proof.Safety
end

section
/-! SUPPORT. What a command can do to the tag map and the stray list, said once: take from them, or one of the two entries of
chapter 03. -/

namespace Sys2Proof.Machine

/-! ### Tables that take from one another -/

/-- A slot rewritten: it is FREE, or it was outside FREE before and keeps its tag. -/
def KeepsTag (before after : Slot) : Prop := after.state ≠ .free → before.state ≠ .free ∧ after.tag = before.tag

theorem keepsTag_of_ne_free {a b : Slot} (ha : a.state ≠ .free) (hb : b.tag = a.tag) : KeepsTag a b := fun _ => ⟨ha, hb⟩

theorem keepsTag_of_eq {a b : Slot} (hs : b.state = a.state) (ht : b.tag = a.tag) : KeepsTag a b := fun h => ⟨hs ▸ h, ht⟩

theorem keepsTag_free (a : Slot) : KeepsTag a .free := fun h => absurd rfl h

theorem keepsTag_unmarkSlot (p : Port) (sl : Slot) : KeepsTag sl (unmarkSlot p sl) := by
  unfold unmarkSlot
  split
  · exact keepsTag_of_eq rfl rfl
  · exact keepsTag_of_eq rfl rfl

theorem keepsTag_softResetSlot (sl : Slot) : KeepsTag sl (softResetSlot sl) := by
  unfold softResetSlot
  split
  · next live =>
    have ne_free : sl.state ≠ .free := fun h => by simp [h, stateLive] at live
    split
    · exact keepsTag_of_ne_free ne_free rfl
    · exact keepsTag_of_ne_free ne_free rfl
  · exact keepsTag_of_eq rfl rfl

/-- Going from `t` to `u` enters nothing: no slot takes a tag, and the stray list keeps some of its entries, in their order. -/
structure Narrows (t u : Table) : Prop where
  slots : ∀ n, KeepsTag (slotAt t n) (slotAt u n)
  strays : u.strays.Sublist t.strays

/-- The tag map and the stray list depend on the slots and the list alone. -/
theorem narrows_of_eq {t u : Table} (hs : u.slots = t.slots) (hl : u.strays = t.strays) : Narrows t u where
  slots n := by
    have : slotAt u n = slotAt t n := by rw [slotAt, slotAt, hs]
    rw [this]
    exact keepsTag_of_eq rfl rfl
  strays := hl ▸ .refl _

theorem Narrows.refl (t : Table) : Narrows t t := narrows_of_eq rfl rfl

theorem Narrows.trans {t u v : Table} (htu : Narrows t u) (huv : Narrows u v) : Narrows t v where
  slots n hv := by
    obtain ⟨hu, tag⟩ := huv.slots n hv
    obtain ⟨ht, tag'⟩ := htu.slots n hu
    exact ⟨ht, tag.trans tag'⟩
  strays := huv.strays.trans htu.strays

theorem narrows_reset (t : Table) : Narrows t Table.reset where
  slots n := by
    have : slotAt Table.reset n = .free := by
      by_cases hn : n < 512
      · simp [slotAt_lt _ _ hn, Table.reset]
      · exact slotAt_ge _ n (Nat.not_lt.mp hn)
    rw [this]
    exact keepsTag_free _
  strays := List.nil_sublist _

theorem narrows_setSlot {t : Table} {n : Nat} {sl : Slot} (h : KeepsTag (slotAt t n) sl) : Narrows t (setSlot t n sl) where
  slots m := by
    by_cases hn : n < 512
    · rw [slotAt_setSlot t n m sl hn]
      split
      · next hm => exact hm ▸ h
      · exact keepsTag_of_eq rfl rfl
    · rw [setSlot_ge t n sl (Nat.not_lt.mp hn)]
      exact keepsTag_of_eq rfl rfl
  strays := .refl _

theorem narrows_mapSlots (t : Table) {f : Nat → Slot → Slot} (h : ∀ n sl, KeepsTag sl (f n sl)) : Narrows t (mapSlots t f) where
  slots n hn := by
    have lt := lt_of_slotAt_ne_free _ n hn
    rw [slotAt_mapSlots t f n lt] at hn ⊢
    exact h n _ hn
  strays := .refl _

/-! ### Accesses to a slot -/

section

variable (s : State) (n : Nat)

/-- An access finds its slot as it is, but for its parity. -/
theorem narrows_found (b : Bool) : Narrows s.table (putSlot s n (disturb b (slotAt s.table n))).table :=
  narrows_setSlot (keepsTag_of_eq rfl rfl)

/-- An access that has found its slot outside FREE rewrites it with its tag. -/
theorem narrows_rewritten {a b : Slot} (hs : (slotAt s.table n).state ≠ .free) (ht : b.tag = (slotAt s.table n).tag) :
    Narrows s.table (putSlot (putSlot s n a) n b).table := by
  rw [putSlot_putSlot]
  exact narrows_setSlot (keepsTag_of_ne_free hs ht)

/-- An access that has found its slot outside FREE, and failing. -/
theorem narrows_failed {sl : Slot} (cycle : Word) (code : Nat) (hs : (slotAt s.table n).state ≠ .free)
    (ht : sl.tag = (slotAt s.table n).tag) : Narrows s.table (failAccess (putSlot s n sl) cycle n sl code).table :=
  narrows_rewritten s n hs ht

/-- A command on a record takes nothing in when its work on a slot outside FREE does not. -/
theorem onRecord_narrows (upset : Bool) {f : Slot → State → Served}
    (hf : ∀ sl t, sl.state ≠ .free → slotAt t.table n = sl → Narrows t.table (f sl t).1.table) :
    Narrows s.table (onRecord n upset f s).1.table := by
  have found := narrows_found s n upset
  unfold onRecord
  dsimp only
  split
  · exact found
  next ne_free =>
  split
  · exact found
  split
  · refine found.trans (hf _ _ ne_free ?_)
    exact slotAt_setSlot_same _ _ _ (lt_of_slotAt_ne_free s.table n ne_free)
  · exact narrows_failed s n _ 6 ne_free rfl

end

/-! ### The walks over the table -/

section

variable (s : State) (n : Nat)

theorem visitSilence_narrows (count : Word) (u : Upset) : Narrows s.table (visitSilence n count u s).table := by
  unfold visitSilence checkSilence
  dsimp only
  split
  · exact narrows_found s n _
  next tracking =>
  have ne_free : (slotAt s.table n).state ≠ .free := by
    rw [show (slotAt s.table n).state = .tracking from Decidable.not_not.mp tracking]
    decide
  split
  · split
    · exact narrows_rewritten s n ne_free (endAccess_slot ..).1
    · exact narrows_rewritten s n ne_free rfl
  · exact narrows_failed s n _ 2 ne_free rfl

theorem stepSilence_narrows (u : Upset) : Narrows s.table (stepSilence u s).table := by
  unfold stepSilence
  split
  · exact .refl _
  · exact (visitSilence_narrows s _ _ u).trans (narrows_of_eq rfl rfl)

theorem visitRating_narrows (u : Upset) : Narrows s.table (visitRating n u s).table := by
  unfold visitRating rateSlot
  dsimp only
  split
  · exact narrows_found s n _
  next rated =>
  have ne_free : (slotAt s.table n).state ≠ .free := fun h => rated ⟨by simp [h], by simp [h]⟩
  split
  · split
    · exact narrows_rewritten s n ne_free rfl
    · exact narrows_rewritten s n ne_free (endAccess_slot ..).1
  · exact narrows_failed s n _ 3 ne_free rfl

theorem stepRating_narrows (u : Upset) : Narrows s.table (stepRating u s).table := by
  unfold stepRating
  split
  · exact .refl _
  · exact visitRating_narrows s _ u

theorem advanceSweep_table (w : Sweep) : (advanceSweep w s).table = s.table := by
  unfold advanceSweep finishSweep
  split
  · rfl
  · cases w.kind <;> rfl

theorem visitClear_narrows (upset : Bool) (w : Sweep) : Narrows s.table (visitClear upset w s).table := by
  unfold visitClear
  dsimp only
  split
  · rw [advanceSweep_table]
    exact narrows_found s _ _
  next live =>
  have ne_free : (slotAt s.table w.position).state ≠ .free := fun h => live (by simp [h, stateLive])
  split
  · rw [advanceSweep_table]
    exact narrows_rewritten s _ ne_free rfl
  · rw [advanceSweep_table]
    exact narrows_failed s _ _ 4 ne_free rfl

theorem stepClear_narrows (upset : Bool) : Narrows s.table (stepClear upset s).table := by
  unfold stepClear
  split
  · split
    · exact visitClear_narrows s upset _
    · exact .refl _
  · exact .refl _

theorem visitScrub_narrows (upset : Bool) (w : Sweep) : Narrows s.table (visitScrub upset w s).table := by
  have found := narrows_found s w.position upset
  unfold visitScrub
  dsimp only
  split
  · rwa [advanceSweep_table]
  split
  · rwa [advanceSweep_table]
  split
  · rw [advanceSweep_table]
    exact found.trans (narrows_setSlot (keepsTag_free _))
  · next ne_free =>
    rw [advanceSweep_table]
    exact narrows_failed s _ _ 5 ne_free rfl

theorem stepScrub_narrows (upset : Bool) : Narrows s.table (stepScrub upset s).table := by
  unfold stepScrub
  split
  · split
    · exact visitScrub_narrows s upset _
    · exact .refl _
  · exact .refl _

theorem advanceMark_narrows (p : Port) (w : MarkWalk) : Narrows s.table (advanceMark p w s).table := by
  unfold advanceMark
  split
  · exact narrows_of_eq rfl rfl
  · exact narrows_of_eq rfl rfl

theorem visitMark_narrows (p : Port) (upset : Bool) (w : MarkWalk) : Narrows s.table (visitMark p upset w s).table := by
  have found := narrows_found s w.position upset
  unfold visitMark
  dsimp only
  split
  · exact found.trans (advanceMark_narrows _ p _)
  next ne_free =>
  split
  · exact found.trans (advanceMark_narrows _ p _)
  split
  · refine .trans ?_ (advanceMark_narrows _ p _)
    exact narrows_rewritten s _ ne_free rfl
  · refine .trans ?_ (advanceMark_narrows _ p _)
    exact narrows_failed s _ _ 6 ne_free rfl

theorem stepMark_narrows (p : Port) (upset : Bool) : Narrows s.table (stepMark p upset s).table := by
  unfold stepMark
  split
  · exact .refl _
  · exact visitMark_narrows s p upset _

/-- The soft-reset visit takes no tag in and drops every stray (R54). -/
theorem visitTable_narrows (upsets : List Nat) : Narrows s.table (visitTable upsets s).table := by
  have found : Narrows s.table (upsetSlots s.table upsets) := narrows_mapSlots _ fun _ _ => keepsTag_of_eq rfl rfl
  exact ⟨(found.trans (narrows_mapSlots _ fun _ => keepsTag_softResetSlot)).slots, List.nil_sublist _⟩

end

/-! ### Commands of the book -/

section

variable (s : State) (args : List Byte) (upset : Bool)

theorem redefineStream_narrows : Narrows s.table (redefineStream upset args s).1.table := by
  unfold redefineStream
  split
  · exact .refl _
  · refine onRecord_narrows s _ upset fun sl t ne_free found => ?_
    unfold redefineSlot
    split
    · exact narrows_setSlot (by rw [found]; exact keepsTag_of_ne_free ne_free rfl)
    · exact .refl _

theorem retireStream_narrows (p : Port) : Narrows s.table (retireStream p args s).1.table := by
  unfold retireStream
  dsimp only
  split
  · exact .refl _
  split
  · exact .refl _
  · exact narrows_setSlot (keepsTag_free _)

theorem setGrading_narrows : Narrows s.table (setGrading upset args s).1.table := by
  unfold setGrading
  split
  · exact .refl _
  · refine onRecord_narrows s _ upset fun sl t ne_free found => ?_
    exact narrows_setSlot (by rw [found]; exact keepsTag_of_ne_free ne_free rfl)

theorem readDefinition_narrows : Narrows s.table (readDefinition upset args s).1.table := by
  unfold readDefinition
  split
  · exact .refl _
  · exact onRecord_narrows s _ upset fun _ _ _ _ => .refl _

theorem readWindow_narrows : Narrows s.table (readWindow upset args s).1.table := by
  unfold readWindow
  split
  · exact .refl _
  · exact onRecord_narrows s _ upset fun _ _ _ _ => .refl _

theorem readSheet_narrows (p : Port) : Narrows s.table (readSheet p upset args s).1.table := by
  unfold readSheet
  dsimp only
  split
  · exact onRecord_narrows s _ upset fun _ _ _ _ => .refl _
  · exact .refl _

theorem readGrades_narrows : Narrows s.table (readGrades upset args s).1.table := by
  unfold readGrades
  split
  · exact .refl _
  · exact onRecord_narrows s _ upset fun _ _ _ _ => .refl _

theorem startMark_narrows (p : Port) : Narrows s.table (startMark p args s).1.table := by
  unfold startMark
  split
  · exact .refl _
  · exact narrows_of_eq rfl rfl

end

/-! ### The Cycle Monitor -/

theorem takePulse_narrows (dt : Nat) (s : State) : Narrows s.table (takePulse dt s).table := by
  unfold takePulse pulseAcquiring pulseLocked pulseHoldover
  dsimp only
  repeat' split
  all_goals exact narrows_of_eq rfl rfl

theorem takeExpiry_narrows (s : State) : Narrows s.table (takeExpiry s).table := by
  unfold takeExpiry expireLocked expireHoldover endHoldoverAtLimit
  repeat' split
  all_goals exact narrows_of_eq rfl rfl

/-! ### The two entries -/

/-- What a command can do to the tag map and the stray list. -/
inductive TagChange (t : Table) : Table → Prop where
  | narrowed {u : Table} (h : Narrows t u) : TagChange t u
  /-- DEFINE-STREAM writes a slot with a tag that no slot holds, and drops the tag's stray entry (R36). -/
  | defined {n : Nat} {tag : Half} {sl : Slot} (lt : n < 512) (valid : Safety.ValidTag tag) (unmapped : slotOfTag t tag = none)
      (holds : sl.tag = tag) : TagChange t { setSlot t n sl with strays := dropStray t.strays tag }
  /-- A frame of no stream is entered in the stray list (R49). -/
  | strayed {tag : Half} (cycle : Word) (path : PathCode) (unmapped : slotOfTag t tag = none) :
      TagChange t { t with strays := straysAfter t.strays tag cycle path }

theorem TagChange.refl (t : Table) : TagChange t t := .narrowed (.refl t)

theorem defineStream_tagChange (p : Port) (args : List Byte) (s : State) : TagChange s.table (defineStream p args s).1.table := by
  unfold defineStream
  split
  · exact .refl _
  next tag d named hargs =>
  split
  · exact .refl _
  next unmapped =>
  split
  · exact .refl _
  · next n lowest =>
    obtain ⟨lt, _⟩ := lowestFree_some s.table n lowest
    exact .defined lt ((Safety.defineArgs_iff.mp hargs).1) (Option.not_isSome_iff_eq_none.mp unmapped) rfl

theorem takeForSlot_narrows {s : State} {n : Nat} (hs : (slotAt s.table n).state ≠ .free) (f : Frame) (u : Upset) :
    Narrows s.table (takeForSlot n f u s).table := by
  have handed (t : State) (h : Handoff) (cs : List Condition) : (makeHandoff t h cs).table = t.table := by
    unfold makeHandoff
    split <;> rfl
  unfold takeForSlot
  dsimp only
  split
  · exact narrows_found s n _
  split
  · exact narrows_failed s n (cycleNow s) 1 hs rfl
  split
  · exact narrows_found s n _
  · rw [takeIntoRecord, handed]
    exact narrows_rewritten s n hs (endAccess_slot ..).1

theorem takeFrame_tagChange (u : Upset) (s : State) : TagChange s.table (takeFrame u s).table := by
  unfold takeFrame
  split
  · split
    · exact .refl _
    · unfold classifyFrame
      split
      · next unmapped => exact .strayed _ _ unmapped
      · next n mapped =>
        obtain ⟨_, ne_free, _⟩ := slotOfTag_some _ _ n mapped
        exact .narrowed (takeForSlot_narrows ne_free _ u)
  · exact .refl _

/-! ### Every command -/

theorem whenRunning_tagChange {f : State → State} {s : State} (h : TagChange s.table (f s).table) :
    TagChange s.table (whenRunning f s).table := by
  obtain hw | hw := whenRunning_cases f s
  · rw [hw]; exact .refl _
  · rwa [hw]

theorem serve_tagChange {c : Command} {p : Port} {f : List Byte → State → Served} {s : State}
    (hf : ∀ args t, TagChange t.table (f args t).1.table) : TagChange s.table (serve c p f s).table := by
  obtain h | ⟨args, _, ⟨_, h⟩ | ⟨ans, _, h⟩⟩ := serve_cases c p f s <;> rw [h]
  · exact .refl _
  · exact hf args (putPort s p (markTaken (s.ports.get p)))
  · exact hf args (putPort s p (markTaken (s.ports.get p)))

theorem underLock_tagChange {p : Port} {f : List Byte → State → Served} (hf : ∀ args t, TagChange t.table (f args t).1.table)
    (args : List Byte) (s : State) : TagChange s.table (underLock p f args s).1.table := by
  unfold underLock
  split
  · exact hf args s
  · exact .refl _

theorem noArgs_tagChange {f : State → Served} (hf : ∀ t, TagChange t.table (f t).1.table) (args : List Byte) (s : State) :
    TagChange s.table (noArgs f args s).1.table := by
  unfold noArgs
  split
  · exact hf s
  · exact .refl _

/-- Every command answers a next state, and changes the tag map and the stray list in no other way. -/
theorem exec_tagChange (c : Instr) (s : State) : ∃ t, exec c s = .next t ∧ TagChange s.table t.table := by
  cases hc : (touches c).table with
  | false =>
    obtain ⟨t, ht, within⟩ := exec_within c s
    refine ⟨t, ht, ?_⟩
    rw [within.table hc]
    exact .refl _
  | true =>
    cases c with
    -- RESET and the parts of port reset and soft reset
    | resetAssert => exact ⟨_, rfl, .narrowed (narrows_reset _)⟩
    | resetRelease =>
      refine ⟨_, rfl, ?_⟩
      split
      · exact .narrowed (narrows_reset _)
      · exact .refl _
    | portResetMarks p =>
      refine ⟨_, rfl, ?_⟩
      split
      · split
        · exact .refl _
        · exact .narrowed (narrows_mapSlots _ fun _ => keepsTag_unmarkSlot p)
      · exact .refl _
    | softResetVisit issuer upsets =>
      refine ⟨_, rfl, ?_⟩
      split
      · split
        · exact .narrowed (visitTable_narrows s upsets)
        · exact .refl _
      · exact .refl _
    -- events of the blocks
    | lineCyclePulse dt => exact ⟨_, rfl, whenRunning_tagChange (.narrowed (takePulse_narrows dt s))⟩
    | timerExpiry => exact ⟨_, rfl, whenRunning_tagChange (.narrowed (takeExpiry_narrows s))⟩
    | silenceCheck u => exact ⟨_, rfl, whenRunning_tagChange (.narrowed (stepSilence_narrows s u))⟩
    | ratingStep u => exact ⟨_, rfl, whenRunning_tagChange (.narrowed (stepRating_narrows s u))⟩
    | frameTake u => exact ⟨_, rfl, whenRunning_tagChange (takeFrame_tagChange u s)⟩
    | clearStep upset => exact ⟨_, rfl, whenRunning_tagChange (.narrowed (stepClear_narrows s upset))⟩
    | scrubStep upset => exact ⟨_, rfl, whenRunning_tagChange (.narrowed (stepScrub_narrows s upset))⟩
    | markVisit p upset => exact ⟨_, rfl, whenRunning_tagChange (.narrowed (stepMark_narrows s p upset))⟩
    -- commands of the book
    | defineStream p => exact ⟨_, rfl, serve_tagChange (underLock_tagChange (defineStream_tagChange p))⟩
    | redefineStream p upset =>
      exact ⟨_, rfl, serve_tagChange (underLock_tagChange fun args t => .narrowed (redefineStream_narrows t args upset))⟩
    | retireStream p => exact ⟨_, rfl, serve_tagChange (underLock_tagChange fun args t => .narrowed (retireStream_narrows t args p))⟩
    | setGrading p upset =>
      exact ⟨_, rfl, serve_tagChange (underLock_tagChange fun args t => .narrowed (setGrading_narrows t args upset))⟩
    | clearStrays p =>
      exact ⟨_, rfl, serve_tagChange (underLock_tagChange (noArgs_tagChange fun t =>
        .narrowed ⟨fun _ => keepsTag_of_eq rfl rfl, List.nil_sublist _⟩))⟩
    | readDefinition p upset => exact ⟨_, rfl, serve_tagChange fun args t => .narrowed (readDefinition_narrows t args upset)⟩
    | readWindow p upset => exact ⟨_, rfl, serve_tagChange fun args t => .narrowed (readWindow_narrows t args upset)⟩
    | readSheet p upset => exact ⟨_, rfl, serve_tagChange fun args t => .narrowed (readSheet_narrows t args upset p)⟩
    | readGrades p upset => exact ⟨_, rfl, serve_tagChange fun args t => .narrowed (readGrades_narrows t args upset)⟩
    | mark p => exact ⟨_, rfl, serve_tagChange fun args t => .narrowed (startMark_narrows t args p)⟩
    | _ => cases hc

end Sys2Proof.Machine
end

section
/-! SUPPORT. Chapter 03's meanings case by case: what a command makes of the slot it names, what a silence check makes of its slot,
and what a frame of no stream makes of the stray list. -/

namespace Sys2Proof.Machine

open Sys2Proof.Safety

/-! ### Requests that are answered -/

section

variable {s t : State} {p : Port} {code : Byte} {args : List Byte} {ans : Answer}

/-- A request in hand that its block answers, with the effects written on the state before it was taken. -/
theorem serve_answered (hi : InHand s p code args) (c : Command) (hc : commandCode c = code) {f : List Byte → State → Served}
    (hf : f args (taken s p) = (taken t p, some ans)) : serve c p f s = answered t p ans := by
  rw [serve_inHand hi c hc, hf]
  exact giveAnswer_taken t p ans

/-- The same for a command that needs the tally lock, from its holder. -/
theorem serve_underLock_answered (hh : Holds s p) (hi : InHand s p code args) (c : Command) (hc : commandCode c = code)
    {f : List Byte → State → Served} (hf : f args (taken s p) = (taken t p, some ans)) :
    serve c p (underLock p f) s = answered t p ans :=
  serve_answered hi c hc ((underLock_holds _ _ _ _ (holdsLock_taken hh)).trans hf)

end

/-! ### The slot a command names (R32, R34, R45, R46) -/

theorem unmapped_iff {s : State} {tag : Half} : Unmapped s tag ↔ slotOfTag s.table tag = none :=
  (slotOfTag_none_iff s.table tag).symm

theorem oneSlotArg_eq_none {args : List Byte} (h : args.length ≠ 2 ∨ 511 < halfAt args 0) : oneSlotArg args = none := by
  unfold oneSlotArg slotArg
  rw [fieldAt_half]
  split
  · next length =>
    obtain wrong | high := h
    · exact absurd length wrong
    · exact if_neg (Nat.not_le.mpr high)
  · rfl

section

variable (n : Nat) (upset : Bool) (f : Slot → State → Served) {s : State}

theorem onRecord_at_free (h : (slotAt s.table n).state = .free) :
    onRecord n upset f s = refuse (putSlot s n (disturb upset (slotAt s.table n))) .noSuchStream := by
  simp [onRecord, h]

theorem onRecord_at_faulted (h : (slotAt s.table n).state = .faulted) :
    onRecord n upset f s = refuse (putSlot s n (disturb upset (slotAt s.table n))) .faulted := by
  simp [onRecord, h]

end

/-- An access that fails has found its slot already. -/
@[simp] theorem failAccess_putSlot (s : State) (cycle : Word) (n : Nat) (a sl : Slot) (code : Nat) :
    failAccess (putSlot s n a) cycle n sl code = failAccess s cycle n sl code := by
  simp [failAccess]

/-- Each command that names a slot is a record access to it. -/
theorem namesSlot_onRecord {s : State} {p : Port} {n : Nat} {upset : Bool} {c : Instr} (h : NamesSlot s p n upset c) :
    ∃ (cmd : Command) (work : List Byte → State → Served) (args : List Byte) (f : Slot → State → Served),
      InHand s p (commandCode cmd) args ∧ exec c s = .next (serve cmd p work s)
        ∧ work args (taken s p) = onRecord n upset f (taken s p) := by
  obtain ⟨hn, ⟨rfl, hh, args, d, named, hi, hargs⟩ | ⟨rfl, hi⟩ | ⟨rfl, hi⟩ | ⟨rfl, mode, hmode, hi⟩
    | ⟨rfl, hh, args, named, hi, hargs⟩ | ⟨rfl, hi⟩⟩ := h
  · refine ⟨.redefineStream, _, args, redefineSlot n d named, hi, rfl, ?_⟩
    rw [underLock_holds _ _ _ _ (holdsLock_taken hh), redefineStream, hargs]
  · refine ⟨.readDefinition, _, _, fun sl t => doneWith t (definitionBytes sl), hi, rfl, ?_⟩
    rw [readDefinition, oneSlotArg_leBytes n hn]
  · refine ⟨.readWindow, _, _, fun sl t => doneWith t (windowBytes sl), hi, rfl, ?_⟩
    rw [readWindow, oneSlotArg_leBytes n hn]
  · obtain ⟨slotField, modeField⟩ := fieldAt_two 2 1 n mode (by omega) (by omega)
    refine ⟨.readSheet, _, _,
      fun sl t => doneWith t (sheetBytes n sl p (mode == 1) (gapCountNow t) (cycleNow t)), hi, rfl, ?_⟩
    simp only [readSheet, slotField, modeField]
    exact if_pos ⟨by simp, hn, hmode⟩
  · refine ⟨.setGrading, _, args, fun sl t => done (putSlot t n
      { sl with record := { sl.record with settings := installSettings named sl.record.settings } }), hi, rfl, ?_⟩
    rw [underLock_holds _ _ _ _ (holdsLock_taken hh), setGrading, hargs]
  · refine ⟨.readGrades, _, _, fun sl t => doneWith t (gradesBytes sl), hi, rfl, ?_⟩
    rw [readGrades, oneSlotArg_leBytes n hn]

/-! ### The silence check of one slot (R43, R44, R46, R47) -/

section

variable {s : State} {n : Nat} {count : Word}

theorem exec_silenceCheck {later : List Word} (hr : Running s)
    (hw : s.table.silence = { events := count :: later, position := n }) (u : Upset) :
    exec (.silenceCheck u) s = .next { visitSilence n count u s with
      table := { (visitSilence n count u s).table with silence := advanceWalk { events := count :: later, position := n } } } := by
  refine congrArg Host.Outcome.next ((whenRunning_running _ s hr).trans ?_)
  simp only [stepSilence, hw]

theorem advanceWalk_eq {later : List Word} (hn : n < 512) : advanceWalk { events := count :: later, position := n } =
    if n = 511 then { events := later, position := 0 } else { events := count :: later, position := n + 1 } := by
  unfold advanceWalk
  dsimp only
  split
  · next below => exact (if_neg (Nat.ne_of_lt below)).symm
  · next last => exact (if_pos (by omega)).symm

theorem visitSilence_passes (during : Bool) (hs : (slotAt s.table n).state ≠ .tracking) :
    visitSilence n count { before := false, during := during } s = s := by
  simp [visitSilence, hs]

theorem visitSilence_checks (during : Bool) (hs : (slotAt s.table n).state = .tracking)
    (hp : (slotAt s.table n).parityGood = true) :
    visitSilence n count { before := false, during := during } s = checkSilence n count during (slotAt s.table n) s := by
  simp [visitSilence, hs, hp]

theorem visitSilence_fails (u : Upset) (hs : (slotAt s.table n).state = .tracking)
    (hp : ((slotAt s.table n).parityGood && !u.before) = false) : visitSilence n count u s = afterFault s count n 2 := by
  have bad : (disturb u.before (slotAt s.table n)).parityGood = false := hp
  rw [← failAccess_eq s count n 2 u.before hp]
  simp [visitSilence, hs, bad]

theorem checkSilence_below
    (h : cyclesElapsed count (slotAt s.table n).record.lastCycle < (slotAt s.table n).record.definition.silence) :
    checkSilence n count false (slotAt s.table n) s = s := by
  simp [checkSilence, Nat.not_le.mpr h]

theorem checkSilence_silent {sl : Slot} (hp : sl.parityGood = true)
    (h : sl.record.definition.silence ≤ cyclesElapsed count sl.record.lastCycle) :
    checkSilence n count false sl s = { putSlot s n { sl with state := .stale } with
      appends := s.appends ++ [appendOf .streamTable
        (viewRecord count .streamSilent true n sl.tag sl.record (cyclesElapsed count sl.record.lastCycle))] } := by
  rw [checkSilence, if_pos h]
  dsimp only
  rw [endAccess_good count n { sl with state := .stale } 2 _ hp]
  rfl

theorem checkSilence_silent_fails {sl : Slot} (h : sl.record.definition.silence ≤ cyclesElapsed count sl.record.lastCycle) :
    checkSilence n count true sl s = { putSlot s n { sl with state := .faulted, parityGood := false } with
      appends := s.appends ++ accessAppends .streamTable none
        [slotRecord count .streamSilent true n sl.tag (cyclesElapsed count sl.record.lastCycle),
          slotRecord count .recordFault true n sl.tag 2] } := by
  have failed : faultSlot (disturb true { sl with state := .stale }) = { sl with state := .faulted, parityGood := false } := by
    simp [faultSlot, disturb]
  rw [checkSilence, if_pos h]
  dsimp only
  rw [endAccess_bad, failed]
  rfl

end

/-! ### A frame of no stream (R49, R50) -/

section

variable {s : State} {f : Frame} {rest : List Descriptor}

/-- A frame that may be taken goes to its tag's slot, or to the stray list. -/
theorem exec_frameTake_ready (h : FrameReady s f rest) (u : Upset) :
    exec (.frameTake u) s = .next (classifyFrame f u
      { s with intake := { withoutFront s.intake rest with frameCount := none } }) := by
  obtain ⟨hr, idle, front, noReset⟩ := h
  have unheld : framesHeld s = false := by
    rw [Bool.eq_false_iff, ne_eq, framesHeld_iff]
    rintro ⟨p, parts, hp, held⟩
    exact Bool.false_ne_true ((noReset p parts hp).symm.trans held)
  refine congrArg Host.Outcome.next ((whenRunning_running _ s hr).trans ?_)
  simp only [takeFrame, idle, front, unheld, removeFront_eq, Bool.false_eq_true, if_false]

theorem classifyFrame_unmapped (u : Upset) (h : Unmapped s f.tag) : classifyFrame f u s = takeStray f s := by
  rw [classifyFrame, unmapped_iff.mp h]

theorem strayListed_eq_false {strays : List Stray} {tag : Half} (h : ∀ x ∈ strays, x.tag ≠ tag) :
    strayListed strays tag = false := by
  simpa [strayListed] using h

theorem takeStray_listed {before after : List Stray} {e : Stray} (hl : s.table.strays = before ++ e :: after)
    (he : e.tag = f.tag) (hx : ∀ x ∈ before ++ after, x.tag ≠ f.tag) :
    takeStray f s = { s with
      table := { s.table with strays := refreshStray e (cycleNow s) f.path :: (before ++ after) } } := by
  obtain ⟨others, others'⟩ := List.forall_mem_append.mp hx
  have listed : strayListed s.table.strays f.tag = true := by simp [strayListed, hl, he]
  have found : s.table.strays.find? (fun x => x.tag == f.tag) = some e := by
    rw [hl, List.find?_append, List.find?_eq_none.mpr (by simpa using others)]
    simp [he]
  have dropped : dropStray s.table.strays f.tag = before ++ after := by
    have keeps {l : List Stray} (h : ∀ x ∈ l, x.tag ≠ f.tag) : l.filter (fun x => x.tag != f.tag) = l :=
      List.filter_eq_self.mpr (by simpa using h)
    simp [dropStray, hl, he, keeps others, keeps others']
  simp [takeStray, listed, straysAfter, found, dropped, setCounters]

theorem takeStray_new (hx : ∀ x ∈ s.table.strays, x.tag ≠ f.tag) :
    takeStray f s = hand
      { s with
        table := { s.table with strays := newStray f.tag (cycleNow s) f.path :: s.table.strays.take 15 },
        intake := { s.intake with counters := { s.intake.counters with
          strayEvictions := if s.table.strays.length < 16 then s.intake.counters.strayEvictions
                            else up1 s.intake.counters.strayEvictions } } }
      .streamTable [plainCondition (cycleNow s) .straySeen (f.tag.toNat + 65536 * pathNumber f.path)] := by
  have unlisted := strayListed_eq_false hx
  have absent : s.table.strays.find? (fun x => x.tag == f.tag) = none := List.find?_eq_none.mpr (by simpa using hx)
  obtain room | full := Nat.lt_or_ge s.table.strays.length 16
  · simp [takeStray, unlisted, straysAfter, absent, setCounters, Config.strayEntries, room, Nat.not_le.mpr room]
  · simp [takeStray, unlisted, straysAfter, absent, setCounters, Config.strayEntries, full, Nat.not_lt.mpr full, satAdd, up1,
      max32]

end

end Sys2Proof.Machine
end

section
/-! SUPPORT. The statements of chapter 03, the Stream Table. -/

namespace Sys2Proof.Safety

open Sys2Proof.Machine

/-! ### The laws of the tag map and the stray list that every step keeps (R32, R49) -/

/-- A law that every change of the tag map and the stray list keeps is kept by every step. -/
theorem keptByEveryStep_of_tagChange {law : State → Prop} (hc : ∀ s t, TagChange s.table t.table → law s → law t) :
    KeptByEveryStep law := by
  refine keptByEveryStep_of law (fun s _ => hc s _ (.refl _)) (fun s => hc s _ (.refl _)) fun c s t hl ht => ?_
  obtain ⟨u, hu, change⟩ := exec_tagChange c s
  obtain rfl : u = t := Host.Outcome.next.inj (hu.symm.trans ht)
  exact hc s u change hl

/-- The slots after DEFINE-STREAM has written one of them. -/
theorem slotAt_defined {t : Table} {n : Nat} (lt : n < 512) (sl : Slot) (strays : List Stray) (m : Nat) :
    slotAt { setSlot t n sl with strays := strays } m = if m = n then sl else slotAt t m :=
  slotAt_setSlot t n m sl lt

theorem tagMapLaw_of_tagChange (s t : State) (h : TagChange s.table t.table) (hs : TagMapLaw s) : TagMapLaw t := by
  obtain ⟨valid, unique⟩ := hs
  unfold TagMapLaw
  generalize t.table = table at h
  cases h with
  | narrowed h =>
    refine ⟨fun n hn => ?_, fun m n hm hn tags => ?_⟩
    · obtain ⟨hn', tag⟩ := h.slots n hn
      exact tag ▸ valid n hn'
    · obtain ⟨hm', tagm⟩ := h.slots m hm
      obtain ⟨hn', tagn⟩ := h.slots n hn
      exact unique m n hm' hn' (tagm ▸ tagn ▸ tags)
  | @defined n tag sl lt validTag unmapped holds =>
    have other := (slotOfTag_none_iff s.table tag).mp unmapped
    simp only [slotAt_defined lt]
    refine ⟨fun m hm => ?_, fun m k hm hk tags => ?_⟩
    · split at hm
      · next here => rwa [if_pos here, holds]
      · next there => rw [if_neg there]; exact valid m hm
    · by_cases hereM : m = n <;> by_cases hereK : k = n <;> simp only [hereM, hereK, if_true, if_false] at hm hk tags
      · exact hereM.trans hereK.symm
      · exact absurd (tags.symm.trans holds) (other k hk)
      · exact absurd (tags.trans holds) (other m hm)
      · exact unique m k hm hk tags
  | strayed => exact ⟨valid, unique⟩

/-- The entries left by dropping a tag's stray are others (R36). -/
theorem mem_dropStray {strays : List Stray} {tag : Half} {e : Stray} : e ∈ dropStray strays tag ↔ e ∈ strays ∧ e.tag ≠ tag := by
  simp [dropStray]

theorem dropStray_sublist (strays : List Stray) (tag : Half) : (dropStray strays tag).Sublist strays := List.filter_sublist

/-- A list of strays as R49 has it, whatever the slots hold. -/
def StraysOk (strays : List Stray) : Prop := strays.length ≤ 16 ∧ (strays.map (·.tag)).Nodup

theorem straysOk_of_sublist {a b : List Stray} (h : b.Sublist a) (ha : StraysOk a) : StraysOk b :=
  ⟨Nat.le_trans h.length_le ha.1, ha.2.sublist (h.map _)⟩

/-- The list with an entry of a tag at the front and fewer than sixteen entries of other tags behind it. -/
theorem straysOk_cons {rest : List Stray} {e : Stray} (hr : StraysOk rest) (room : rest.length < 16)
    (new : ∀ x ∈ rest, x.tag ≠ e.tag) : StraysOk (e :: rest) := by
  refine ⟨room, List.nodup_cons.mpr ⟨fun h => ?_, hr.2⟩⟩
  obtain ⟨x, hx, tag⟩ := List.mem_map.mp h
  exact new x hx tag

/-- Dropping a tag that is listed makes room for one. -/
theorem dropStray_length_lt {strays : List Stray} {e : Stray} (h : e ∈ strays) :
    (dropStray strays e.tag).length < strays.length := by
  rw [dropStray, List.length_filter_lt_length_iff_exists]
  exact ⟨e, h, by simp⟩

/-- The entry of a frame of no stream, by whether its tag is listed (R49). -/
theorem straysAfter_ok {strays : List Stray} (tag : Half) (cycle : Word) (path : PathCode) (h : StraysOk strays) :
    StraysOk (straysAfter strays tag cycle path)
      ∧ ∀ e ∈ straysAfter strays tag cycle path, e.tag = tag ∨ e ∈ strays := by
  unfold straysAfter
  split
  · next e found =>
    have listed : e ∈ strays := List.mem_of_find?_eq_some found
    obtain rfl : e.tag = tag := by simpa using List.find?_some found
    have rest : StraysOk (dropStray strays e.tag) := straysOk_of_sublist (dropStray_sublist ..) h
    refine ⟨straysOk_cons rest (Nat.lt_of_lt_of_le (dropStray_length_lt listed) h.1) fun x hx => (mem_dropStray.mp hx).2,
      fun x hx => ?_⟩
    obtain rfl | hx := List.mem_cons.mp hx
    · exact .inl rfl
    · exact .inr (mem_dropStray.mp hx).1
  · next absent =>
    have kept : (strays.take (Config.strayEntries - 1)).Sublist strays := List.take_sublist _ _
    have room : (strays.take (Config.strayEntries - 1)).length < 16 := Nat.lt_succ_of_le (List.length_take_le _ _)
    refine ⟨straysOk_cons (straysOk_of_sublist kept h) room fun x hx tag => ?_, fun x hx => ?_⟩
    · simpa [tag, newStray] using List.find?_eq_none.mp absent x (kept.subset hx)
    · obtain rfl | hx := List.mem_cons.mp hx
      · exact .inl rfl
      · exact .inr (kept.subset hx)

theorem strayLaw_of_tagChange (s t : State) (h : TagChange s.table t.table) (hs : StrayLaw s) : StrayLaw t := by
  obtain ⟨length, nodup, unheld⟩ := hs
  have ok : StraysOk s.table.strays := ⟨length, nodup⟩
  unfold StrayLaw
  rw [← and_assoc]
  generalize t.table = table at h
  cases h with
  | narrowed h =>
    refine ⟨straysOk_of_sublist h.strays ok, fun e he n hn => ?_⟩
    obtain ⟨hn', tag⟩ := h.slots n hn
    exact tag ▸ unheld e (h.strays.subset he) n hn'
  | @defined n tag sl lt _ _ holds =>
    refine ⟨straysOk_of_sublist (dropStray_sublist ..) ok, fun e he m hm => ?_⟩
    obtain ⟨listed, other⟩ := mem_dropStray.mp he
    rw [slotAt_defined lt] at hm ⊢
    split at hm
    · next here => rw [if_pos here, holds]; exact other.symm
    · next there => rw [if_neg there]; exact unheld e listed m hm
  | @strayed tag cycle path unmapped =>
    obtain ⟨after, entries⟩ := straysAfter_ok tag cycle path ok
    refine ⟨after, fun e he n hn => ?_⟩
    obtain rfl | listed := entries e he
    · exact (slotOfTag_none_iff s.table e.tag).mp unmapped n hn
    · exact unheld e listed n hn

/-- Settles O26: each change that a command makes to the tag map and the stray list keeps both laws. -/
theorem everyStepKeepsTheTagMapAndStrayLaws : Obligations.EveryStepKeepsTheTagMapAndStrayLaws :=
  ⟨keptByEveryStep_of_tagChange tagMapLaw_of_tagChange, keptByEveryStep_of_tagChange strayLaw_of_tagChange⟩

/-! ### The argument formats (R33, R35, R37, R113, R139) -/

/-- Settles O18: the four readers, each the inverse of its layout. -/
theorem argumentsReadBack : Obligations.ArgumentsReadBack :=
  ⟨fun _ _ _ _ => defineArgs_iff, fun _ _ _ _ => redefineArgs_iff, fun _ _ _ => gradingArgs_iff, fun _ _ => armArgs_iff⟩

/-! ### DEFINE-STREAM (R33, R35, R36) -/

section

variable {s : State} {p : Port} {args : List Byte} (hh : Holds s p) (hi : InHand s p 0x10 args)

include hh hi

theorem exec_defineStream {t : State} {ans : Answer} (hf : defineStream p args (taken s p) = (taken t p, some ans)) :
    exec (.defineStream p) s = .next (answered t p ans) :=
  congrArg Host.Outcome.next (serve_underLock_answered hh hi .defineStream rfl hf)

end

/-- Settles O17: by the arguments, the tag map and the lowest FREE slot. -/
theorem defineStreamTakesTheLowestFreeSlot : Obligations.DefineStreamTakesTheLowestFreeSlot := by
  intro s p args hh hi
  refine ⟨fun hargs => ?badValue, fun tag d named hargs => ⟨fun mapped => ?tagInUse, fun unmapped full => ?tableFull,
    fun n unmapped hn free lowest => ?installed⟩⟩
  case badValue =>
    refine exec_defineStream hh hi ?_
    rw [defineStream, hargs]
    rfl
  case tagInUse =>
    refine exec_defineStream hh hi ?_
    have inUse : (slotOfTag s.table tag).isSome = true := Option.isSome_iff_ne_none.mpr fun h => mapped (unmapped_iff.mpr h)
    simp only [defineStream, hargs, taken_table, inUse, if_true]
    rfl
  case tableFull =>
    refine exec_defineStream hh hi ?_
    simp only [defineStream, hargs, taken_table, unmapped_iff.mp unmapped, lowestFree_eq_none _ full]
    rfl
  case installed =>
    refine exec_defineStream hh hi ?_
    simp only [defineStream, hargs, taken_table, unmapped_iff.mp unmapped, lowestFree_eq_some _ n hn free lowest]
    rfl

/-! ### REDEFINE-STREAM and RETIRE-STREAM (R37 to R39) -/

section

variable {s t : State} {p : Port} {args : List Byte} {ans : Answer} (hh : Holds s p)

include hh

theorem exec_redefineStream (upset : Bool) (hi : InHand s p 0x11 args)
    (hf : redefineStream upset args (taken s p) = (taken t p, some ans)) :
    exec (.redefineStream p upset) s = .next (answered t p ans) :=
  congrArg Host.Outcome.next (serve_underLock_answered hh hi .redefineStream rfl hf)

theorem exec_retireStream (hi : InHand s p 0x12 args) (hf : retireStream p args (taken s p) = (taken t p, some ans)) :
    exec (.retireStream p) s = .next (answered t p ans) :=
  congrArg Host.Outcome.next (serve_underLock_answered hh hi .retireStream rfl hf)

end

theorem redefineStream_readable {s : State} {p : Port} {n : Nat} {args : List Byte} {d : Definition}
    {named : PerGrade (Option GradeSetting)} (hargs : redefineArgs args = some (n, d, named)) (readable : Readable s n) :
    redefineStream false args (taken s p) = redefineSlot n d named (slotAt s.table n) (taken s p) := by
  rw [redefineStream, hargs]
  exact onRecord_taken readable _

/-- Settles O19: REDEFINE-STREAM by whether the paths stay, RETIRE-STREAM by the slot's state, and both by their arguments. -/
theorem streamsAreRedefinedAndRetired : Obligations.StreamsAreRedefinedAndRetired := by
  refine ⟨fun s p n args d named hh hi hargs readable => ⟨fun same => ?redefined, fun changed => ?paths⟩,
    fun s p n hh hn hi => ⟨fun free => ?noStream, fun ne_free => ?retired⟩,
    fun s p args hh => ⟨fun hi hargs => ?redefineArgs, fun hi wrong => ?retireArgs⟩⟩
  case redefined =>
    refine exec_redefineStream hh false hi ?_
    rw [redefineStream_readable hargs readable, redefineSlot, if_pos same]
    rfl
  case paths =>
    refine exec_redefineStream hh false hi ?_
    rw [redefineStream_readable hargs readable, redefineSlot, if_neg changed]
    rfl
  case noStream =>
    refine exec_retireStream hh hi ?_
    simp only [retireStream, oneSlotArg_leBytes n hn, taken_table, free, if_true]
    rfl
  case retired =>
    refine exec_retireStream hh hi ?_
    simp only [retireStream, oneSlotArg_leBytes n hn, taken_table, ne_free, if_false]
    rfl
  case redefineArgs =>
    refine exec_redefineStream hh false hi ?_
    rw [redefineStream, hargs]
    rfl
  case retireArgs =>
    refine exec_retireStream hh hi ?_
    rw [retireStream, oneSlotArg_eq_none wrong]
    rfl

/-! ### READ-DEFINITION and READ-GRADES (R41, R115) -/

section

variable {s : State} {p : Port} {n : Nat} (hn : n ≤ 511) (readable : Readable s n)

include hn readable

theorem exec_readDefinition (hi : InHand s p 0x13 (leBytes 2 n)) :
    exec (.readDefinition p false) s = .next (answered s p (.okData (definitionBytes (slotAt s.table n)))) := by
  refine congrArg Host.Outcome.next (serve_answered hi .readDefinition rfl ?_)
  rw [readDefinition, oneSlotArg_leBytes n hn]
  exact onRecord_taken readable _

theorem exec_readGrades (hi : InHand s p 0x22 (leBytes 2 n)) :
    exec (.readGrades p false) s = .next (answered s p (.okData (gradesBytes (slotAt s.table n)))) := by
  refine congrArg Host.Outcome.next (serve_answered hi .readGrades rfl ?_)
  rw [readGrades, oneSlotArg_leBytes n hn]
  exact onRecord_taken readable _

end

/-- Settles O20: the data of both answers, field by field. -/
theorem definitionAndGradesAreRead : Obligations.DefinitionAndGradesAreRead := by
  intro s p n hn readable sl r setting grade definitionData gradesData
  have definitionLayout : definitionBytes sl = definitionData := by
    simp [definitionBytes, gradeList, settingBytes, flagByte, definitionData, setting, r]
  have gradesLayout : gradesBytes sl = gradesData := by
    simp [gradesBytes, gradeBytes, gradeList, settingBytes, flagByte, gradesData, grade, setting, r]
  refine ⟨by simp [definitionData, setting], by simp [gradesData, grade, setting], fun hi => ?_, fun hi => ?_⟩
  · rw [← definitionLayout]
    exact exec_readDefinition hn readable hi
  · rw [← gradesLayout]
    exact exec_readGrades hn readable hi

/-! ### Slot commands at a FREE, FAULTED or failing slot (R34, R45, R46) -/

/-- Settles O22: every such command is one record access, which stops at the slot's state or its parity. -/
theorem slotCommandsStopAtFreeFaultedAndFailingSlots : Obligations.SlotCommandsStopAtFreeFaultedAndFailingSlots := by
  intro s p n upset c names sl struck
  obtain ⟨cmd, work, args, f, hi, hc, access⟩ := namesSlot_onRecord names
  rw [hc]
  refine ⟨fun free => ?free, fun faulted => ?faulted, fun fails => ?fails⟩
  case free => exact congrArg Host.Outcome.next (serve_answered hi cmd rfl (access.trans (onRecord_at_free n upset f free)))
  case faulted => exact congrArg Host.Outcome.next (serve_answered hi cmd rfl (access.trans (onRecord_at_faulted n upset f faulted)))
  case fails =>
    have failed := access.trans (onRecord_bad n upset f (taken s p) fails.1 fails.2)
    rw [serve_inHand hi cmd rfl, failed]
    exact congrArg Host.Outcome.next (failAccess_answered s p n 6 upset fails)

/-! ### LIST-STREAMS, READ-STRAYS and CLEAR-STRAYS (R42, R51, R52) -/

theorem listedSlots_eq (t : Table) (first : Nat) :
    listedSlots t first = (List.range 512).filter (fun n => decide (first ≤ n ∧ (slotAt t n).state ≠ .free)) := by
  have outside (st : SlotState) : (st != .free) = decide (st ≠ .free) := by cases st <;> rfl
  simp only [listedSlots, outside, Bool.decide_and]

/-- More slots beyond the limit leave a last slot returned, since the limit is not 0. -/
theorem resumeSlot_eq {listed : List Nat} {limit : Nat} (h : 1 ≤ limit) :
    resumeSlot listed limit = if limit < listed.length then (listed.take limit).getLast?.getD 0 + 1 else 512 := by
  unfold resumeSlot
  split
  · next more =>
    have returned : listed.take limit ≠ [] := by
      rw [← List.length_pos_iff, List.length_take]
      omega
    simp [List.getLast?_eq_some_getLast returned]
  · rfl

section

variable {s : State} {p : Port} {args : List Byte} {ans : Answer}

theorem exec_listStreams (hi : InHand s p 0x14 args) (hf : listStreams args (taken s p) = (taken s p, some ans)) :
    exec (.listStreams p) s = .next (answered s p ans) :=
  congrArg Host.Outcome.next (serve_answered hi .listStreams rfl hf)

theorem exec_readStrays (hi : InHand s p 0x15 args) (hf : readStrays args (taken s p) = (taken s p, some ans)) :
    exec (.readStrays p) s = .next (answered s p ans) :=
  congrArg Host.Outcome.next (serve_answered hi .readStrays rfl hf)

end

/-- Settles O23: LIST-STREAMS and READ-STRAYS by their arguments, CLEAR-STRAYS from the holder. -/
theorem tableIsListedAndStraysAreReadAndCleared : Obligations.TableIsListedAndStraysAreReadAndCleared := by
  intro s p
  refine ⟨fun first limit hfirst hlow hhigh hi => ?listed, fun first limit hfirst hlow hhigh hi => ?strays, fun hh hi => ?cleared,
    fun args hi wrong => ?listArgs, fun args hi wrong => ?strayArgs⟩
  case listed =>
    intro held returned resume
    obtain ⟨firstField, limitField⟩ := fieldAt_two 2 1 first limit (by omega) (by omega)
    refine exec_listStreams hi ?_
    simp only [listStreams, firstField, limitField]
    rw [if_pos ⟨by simp, hfirst, hlow, hhigh⟩, resumeSlot_eq hlow, listedSlots_eq]
    rfl
  case strays =>
    intro returned
    obtain ⟨firstField, limitField⟩ := fieldAt_two 1 1 first limit (by omega) (by omega)
    refine exec_readStrays hi ?_
    simp only [readStrays, firstField, limitField]
    rw [if_pos ⟨by simp, hfirst, hlow, hhigh⟩]
    rfl
  case cleared => exact congrArg Host.Outcome.next (serve_underLock_answered hh hi .clearStrays rfl rfl)
  case listArgs =>
    refine exec_listStreams hi ?_
    simp only [listStreams, fieldAt_half, fieldAt_byte]
    rw [if_neg (by omega)]
    rfl
  case strayArgs =>
    refine exec_readStrays hi ?_
    simp only [readStrays, fieldAt_byte]
    rw [if_neg (by omega)]
    rfl

/-! ### The silence check of one slot (R43, R44, R46, R47) -/

/-- Settles O24: by the slot's state, its parity and the cycles elapsed. -/
theorem silenceCheckMakesSilentStreamsStale : Obligations.SilenceCheckMakesSilentStreamsStale := by
  intro s count later n hr hw hn sl walk moved elapsed
  have checked (u : Upset) : exec (.silenceCheck u) s = .next (moved (visitSilence n count u s)) := by
    rw [exec_silenceCheck hr hw, advanceWalk_eq hn]
  simp only [checked]
  refine ⟨fun hs => ?passes, fun hs hp below => ?below, fun hs hp silent => ⟨?silent, ?overtaken⟩, fun u hs hp => ?fails⟩
  case passes => rw [visitSilence_passes false hs]
  case below => rw [visitSilence_checks false hs hp, checkSilence_below below]
  case silent =>
    rw [visitSilence_checks false hs hp, checkSilence_silent hp silent]
    rfl
  case overtaken =>
    rw [visitSilence_checks true hs hp, checkSilence_silent_fails silent]
    rfl
  case fails => rw [visitSilence_fails u hs hp]

/-! ### A frame of no stream (R49, R50) -/

/-- Settles O25: by whether the tag is listed. -/
theorem strayFrameIsListed : Obligations.StrayFrameIsListed := by
  intro s u f rest ready unmapped cycle left
  have strayed : exec (.frameTake u) s = .next (takeStray f { s with intake := left }) :=
    (exec_frameTake_ready ready u).trans
      (congrArg Host.Outcome.next (classifyFrame_unmapped (s := { s with intake := left }) u unmapped))
  rw [strayed]
  refine ⟨fun before e after list tag others => ?listed, fun others => ?new⟩
  case listed => exact congrArg Host.Outcome.next (takeStray_listed (s := { s with intake := left }) list tag others)
  case new => exact congrArg Host.Outcome.next (takeStray_new (s := { s with intake := left }) others)

end Sys2Proof.Safety
end

section
/-! SUPPORT. What a command can do to a slot of the Stream Table, said once: keep its state and record, or one of the rewritings of
chapters 03 to 06, after which the slot may be FAULTED. -/

namespace Sys2Proof.Machine

/-! ### Rewritings of a slot -/

/-- What a command can make of a slot's state and record, while GAP_COUNT stands at `gap`. -/
inductive Rewrites (gap : Nat) (st : SlotState) (r : Record) : SlotState → Record → Prop where
  | kept : Rewrites gap st r st r
  /-- RETIRE-STREAM, the scrubbing of FREE storage, and RESET (R39, R53, R99). -/
  | freed (r' : Record) : Rewrites gap st r .free r'
  /-- DEFINE-STREAM (R36). -/
  | defined (d : Definition) (settings : PerGrade GradeSetting) : Rewrites gap st r .defined (.fresh d settings gap)
  /-- REDEFINE-STREAM (R38). -/
  | redefined (live : stateLive st = true) (d : Definition) (named : PerGrade (Option GradeSetting)) :
      Rewrites gap st r .defined (redefinedRecord d named r)
  /-- The soft-reset visit (R54). -/
  | softReset : Rewrites gap st r .defined (softResetRecord r)
  /-- A frame of a DEFINED stream (R59). -/
  | acquired (state : st = .defined) (f : Frame) (epoch : Byte) (cycle : Word) :
      Rewrites gap st r .tracking (accountFrame (acquire r f epoch).record f (acquire r f epoch).incs cycle)
  /-- A frame of a TRACKING or STALE stream (R58). -/
  | tracked (state : st = .tracking ∨ st = .stale) (f : Frame) (epoch : Byte) (cycle : Word) :
      Rewrites gap st r (stateAfterFrame st (classifyTracked r f epoch).incs)
        (accountFrame (classifyTracked r f epoch).record f (classifyTracked r f epoch).incs cycle)
  /-- The silence check (R43). -/
  | silent (state : st = .tracking) : Rewrites gap st r .stale r
  /-- A port's marks (R84, R87). -/
  | marked (p : Port) : Rewrites gap st r st (markRecord p r)
  | unmarked (p : Port) : Rewrites gap st r st { r with marks := r.marks.set p (.all 0) }
  /-- A clear step (R94). -/
  | cleared : Rewrites gap st r st (clearedRecord gap r)
  /-- A rating step (R107). -/
  | rated : Rewrites gap st r st (ratedRecord r)
  /-- SET-GRADING (R113). -/
  | regraded (named : PerGrade (Option GradeSetting)) :
      Rewrites gap st r st { r with settings := installSettings named r.settings }

/-- What a command can make of a slot: a rewriting, which stands when the slot then becomes FAULTED (R46, R47). -/
inductive SlotChange (gap : Nat) (a b : Slot) : Prop where
  | rewritten (h : Rewrites gap a.state a.record b.state b.record)
  | faulted {st : SlotState} (h : Rewrites gap a.state a.record st b.record) (held : st ≠ .free) (hb : b.state = .faulted)

theorem stateLive_iff {st : SlotState} : stateLive st = true ↔ st ≠ .free ∧ st ≠ .faulted := by
  cases st <;> simp [stateLive]

/-- Every slot of a table is changed in one of these ways. -/
def SlotsChange (gap : Nat) (t u : Table) : Prop := ∀ n, SlotChange gap (slotAt t n) (slotAt u n)

section

variable {gap : Nat} {t u : Table}

theorem slotsChange_of_eq (h : u.slots = t.slots) : SlotsChange gap t u := by
  intro n
  have same : slotAt u n = slotAt t n := by rw [slotAt, slotAt, h]
  rw [same]
  exact .rewritten .kept

theorem slotsChange_setSlot {n : Nat} {sl : Slot} (h : SlotChange gap (slotAt t n) sl) : SlotsChange gap t (setSlot t n sl) := by
  intro m
  by_cases hn : n < 512
  · rw [slotAt_setSlot t n m sl hn]
    split
    · next here => exact here ▸ h
    · exact .rewritten .kept
  · rw [setSlot_ge t n sl (Nat.not_lt.mp hn)]
    exact .rewritten .kept

theorem slotsChange_mapSlots (f : Nat → Slot → Slot) (h : ∀ n sl, SlotChange gap sl (f n sl)) :
    SlotsChange gap t (mapSlots t f) := by
  intro n
  by_cases hn : n < 512
  · rw [slotAt_mapSlots t f n hn]
    exact h n _
  · rw [slotAt_ge _ n (Nat.not_lt.mp hn), slotAt_ge _ n (Nat.not_lt.mp hn)]
    exact .rewritten .kept

theorem slotAt_reset (n : Nat) : slotAt Table.reset n = .free := by
  by_cases hn : n < 512
  · simp [slotAt_lt _ _ hn, Table.reset]
  · exact slotAt_ge _ n (Nat.not_lt.mp hn)

theorem slotsChange_reset : SlotsChange gap t Table.reset := by
  intro n
  rw [slotAt_reset]
  exact .rewritten (.freed _)

end

/-! ### Accesses to a slot -/

section

variable {gap : Nat} (s : State) (n : Nat)

/-- An access finds its slot as it is, but for its parity. -/
theorem slotsChange_found (b : Bool) : SlotsChange gap s.table (putSlot s n (disturb b (slotAt s.table n))).table :=
  slotsChange_setSlot (.rewritten .kept)

/-- An access's work on the slot that it has found. -/
theorem slotsChange_work {a b : Slot} (h : SlotChange gap (slotAt s.table n) b) :
    SlotsChange gap s.table (putSlot (putSlot s n a) n b).table := by
  rw [putSlot_putSlot]
  exact slotsChange_setSlot h

/-- An access that has found its slot outside FREE, and failing. -/
theorem slotsChange_failed (upset : Bool) (cycle : Word) (code : Nat) (held : (slotAt s.table n).state ≠ .free) :
    SlotsChange gap s.table
      (failAccess (putSlot s n (disturb upset (slotAt s.table n))) cycle n (disturb upset (slotAt s.table n)) code).table :=
  slotsChange_work s n (.faulted .kept held rfl)

/-- An access whose read at the end passes or fails (R47). -/
theorem slotChange_endAccess {a sl : Slot} (h : Rewrites gap a.state a.record sl.state sl.record) (held : sl.state ≠ .free)
    (cycle : Word) (during : Bool) (code : Nat) (drafts : List Draft) :
    SlotChange gap a (endAccess cycle n sl during code drafts).slot := by
  obtain ⟨-, record, state | state⟩ := endAccess_slot cycle n sl during code drafts
  · exact .rewritten (by rwa [state, record])
  · exact .faulted (by rwa [record]) held state

/-- A command on a record, when its work on the slot it finds is one of these changes. -/
theorem onRecord_slots (upset : Bool) {f : Slot → State → Served}
    (hf : ∀ sl t, stateLive sl.state = true → slotAt t.table n = sl → SlotsChange gap t.table (f sl t).1.table) :
    SlotsChange gap s.table (onRecord n upset f s).1.table := by
  have found : SlotsChange gap s.table (putSlot s n (disturb upset (slotAt s.table n))).table := slotsChange_found s n upset
  unfold onRecord
  dsimp only
  split
  · exact found
  next held =>
  split
  · exact found
  next usable =>
  split
  · intro m
    have lt := lt_of_slotAt_ne_free s.table n held
    have work := hf _ (putSlot s n (disturb upset (slotAt s.table n))) (stateLive_iff.mpr ⟨held, usable⟩)
      (slotAt_setSlot_same _ _ _ lt) m
    rw [putSlot_table, slotAt_setSlot _ _ _ _ lt] at work
    split at work
    · next here =>
      subst here
      -- a change does not depend on the parity that the access found
      cases work with
      | rewritten h => exact .rewritten h
      | faulted h held hb => exact .faulted h held hb
    · exact work
  · exact slotsChange_failed s n upset _ 6 held

end

/-! ### Frames (04) -/

/-- A frame rewrites a slot that is neither FREE nor FAULTED, by its state (R58). -/
theorem rewrites_slotAfterFrame {gap : Nat} (sl : Slot) (f : Frame) (epoch : Byte) (cycle : Word) (held : sl.state ≠ .free)
    (usable : sl.state ≠ .faulted) :
    Rewrites gap sl.state sl.record (slotAfterFrame sl f epoch cycle).state (slotAfterFrame sl f epoch cycle).record := by
  by_cases defined : sl.state = .defined
  · simp only [slotAfterFrame, classify, if_pos defined]
    exact .acquired defined f epoch cycle
  · simp only [slotAfterFrame, classify, if_neg defined]
    refine .tracked ?_ f epoch cycle
    cases h : sl.state <;> simp [h] at held usable defined ⊢

theorem slotAfterFrame_ne_free (sl : Slot) (f : Frame) (epoch : Byte) (cycle : Word) (held : sl.state ≠ .free) :
    (slotAfterFrame sl f epoch cycle).state ≠ .free := by
  simp only [slotAfterFrame, stateAfterFrame]
  split
  · decide
  · exact held

@[simp] theorem makeHandoff_table (s : State) (h : Handoff) (cs : List Condition) : (makeHandoff s h cs).table = s.table := by
  unfold makeHandoff
  split <;> rfl

section

variable {gap : Nat} (s : State) (f : Frame) (u : Upset)

theorem takeForSlot_slots {n : Nat} (held : (slotAt s.table n).state ≠ .free) :
    SlotsChange gap s.table (takeForSlot n f u s).table := by
  unfold takeForSlot
  dsimp only
  split
  · exact slotsChange_found s n _
  next usable =>
  split
  · exact slotsChange_failed s n _ (cycleNow s) 1 held
  split
  · exact slotsChange_found s n _
  · rw [takeIntoRecord, makeHandoff_table]
    refine slotsChange_work s n (slotChange_endAccess n ?_ (slotAfterFrame_ne_free _ f _ _ ?_) ..)
    · exact rewrites_slotAfterFrame (disturb u.before (slotAt s.table n)) f _ _ held usable
    · exact held

theorem takeFrame_slots : SlotsChange gap s.table (takeFrame u s).table := by
  unfold takeFrame
  split
  · split
    · exact slotsChange_of_eq rfl
    · unfold classifyFrame
      split
      · exact slotsChange_of_eq rfl
      · next n mapped =>
        obtain ⟨-, held, -⟩ := slotOfTag_some _ _ n mapped
        exact takeForSlot_slots _ _ u held
  · exact slotsChange_of_eq rfl

end

/-! ### The walks over the table (03, 05, 06) -/

section

variable {gap : Nat} (s : State) (n : Nat)

theorem visitSilence_slots (count : Word) (u : Upset) : SlotsChange gap s.table (visitSilence n count u s).table := by
  unfold visitSilence checkSilence
  dsimp only
  split
  · exact slotsChange_found s n _
  next state =>
  have tracking : (slotAt s.table n).state = .tracking := Decidable.not_not.mp state
  split
  · split
    · exact slotsChange_work s n (slotChange_endAccess n (.silent tracking) (by simp) ..)
    · exact slotsChange_work s n (.rewritten .kept)
  · exact slotsChange_failed s n _ _ 2 (by simp [tracking])

theorem stepSilence_slots (u : Upset) : SlotsChange gap s.table (stepSilence u s).table := by
  unfold stepSilence
  split
  · exact slotsChange_of_eq rfl
  · exact visitSilence_slots s _ _ u

theorem visitRating_slots (u : Upset) : SlotsChange gap s.table (visitRating n u s).table := by
  unfold visitRating rateSlot
  dsimp only
  split
  · exact slotsChange_found s n _
  next rated =>
  have held : (slotAt s.table n).state ≠ .free := fun h => rated ⟨by simp [h], by simp [h]⟩
  split
  · split
    · exact slotsChange_work s n (.rewritten .rated)
    · refine slotsChange_work s n (slotChange_endAccess n .rated ?_ ..)
      exact held
  · exact slotsChange_failed s n _ _ 3 held

theorem stepRating_slots (u : Upset) : SlotsChange gap s.table (stepRating u s).table := by
  unfold stepRating
  split
  · exact slotsChange_of_eq rfl
  · exact visitRating_slots s _ u

theorem visitClear_slots (upset : Bool) (w : Sweep) : SlotsChange (gapCountNow s) s.table (visitClear upset w s).table := by
  unfold visitClear
  dsimp only
  split
  · rw [advanceSweep_table]
    exact slotsChange_found s _ _
  next live =>
  have held : (slotAt s.table w.position).state ≠ .free := (stateLive_iff.mp (by simpa using live)).1
  split
  · rw [advanceSweep_table]
    exact slotsChange_work s _ (.rewritten .cleared)
  · rw [advanceSweep_table]
    exact slotsChange_failed s _ _ _ 4 held

theorem stepClear_slots (upset : Bool) : SlotsChange (gapCountNow s) s.table (stepClear upset s).table := by
  unfold stepClear
  split
  · split
    · exact visitClear_slots s upset _
    · exact slotsChange_of_eq rfl
  · exact slotsChange_of_eq rfl

theorem visitScrub_slots (upset : Bool) (w : Sweep) : SlotsChange gap s.table (visitScrub upset w s).table := by
  have found : SlotsChange gap s.table (putSlot s w.position (disturb upset (slotAt s.table w.position))).table :=
    slotsChange_found s w.position upset
  unfold visitScrub
  dsimp only
  split
  · rwa [advanceSweep_table]
  split
  · rwa [advanceSweep_table]
  split
  · rw [advanceSweep_table]
    exact slotsChange_work s _ (.rewritten (.freed _))
  · next held =>
    rw [advanceSweep_table]
    exact slotsChange_failed s _ _ _ 5 held

theorem stepScrub_slots (upset : Bool) : SlotsChange gap s.table (stepScrub upset s).table := by
  unfold stepScrub
  split
  · split
    · exact visitScrub_slots s upset _
    · exact slotsChange_of_eq rfl
  · exact slotsChange_of_eq rfl

/-- The moves of a MARK walk leave the slots as they are. -/
theorem advanceMark_slots {t : Table} (p : Port) (w : MarkWalk) (h : SlotsChange gap t s.table) :
    SlotsChange gap t (advanceMark p w s).table := by
  unfold advanceMark
  split <;> exact h

theorem visitMark_slots (p : Port) (upset : Bool) (w : MarkWalk) : SlotsChange gap s.table (visitMark p upset w s).table := by
  unfold visitMark
  dsimp only
  split
  · exact advanceMark_slots _ p _ (slotsChange_found s _ _)
  next held =>
  split
  · exact advanceMark_slots _ p _ (slotsChange_found s _ _)
  split
  · exact advanceMark_slots _ p _ (slotsChange_work s _ (.rewritten (.marked p)))
  · exact advanceMark_slots _ p _ (slotsChange_failed s _ _ _ 6 held)

theorem stepMark_slots (p : Port) (upset : Bool) : SlotsChange gap s.table (stepMark p upset s).table := by
  unfold stepMark
  split
  · exact slotsChange_of_eq rfl
  · exact visitMark_slots s p upset _

theorem slotChange_unmarkSlot (p : Port) (sl : Slot) : SlotChange gap sl (unmarkSlot p sl) := by
  unfold unmarkSlot
  split
  · exact .rewritten .kept
  · exact .rewritten (.unmarked p)

/-- The soft-reset visit finds a slot, its parity lost or not, and remakes it, faults it or leaves it (R54). -/
theorem slotChange_softResetSlot (upset : Bool) (sl : Slot) : SlotChange gap sl (softResetSlot (disturb upset sl)) := by
  unfold softResetSlot
  split
  · next live =>
    split
    · exact .rewritten .softReset
    · exact .faulted .kept (stateLive_iff.mp live).1 rfl
  · exact .rewritten .kept

theorem visitTable_slots (upsets : List Nat) : SlotsChange gap s.table (visitTable upsets s).table := by
  intro n
  change SlotChange gap (slotAt s.table n) (slotAt (mapSlots (mapSlots s.table _) _) n)
  by_cases hn : n < 512
  · rw [slotAt_mapSlots _ _ n hn, slotAt_mapSlots _ _ n hn]
    exact slotChange_softResetSlot _ _
  · rw [slotAt_ge _ n (Nat.not_lt.mp hn), slotAt_ge _ n (Nat.not_lt.mp hn)]
    exact .rewritten .kept

end

/-! ### Commands of the book -/

section

variable {gap : Nat} (s : State) (args : List Byte) (upset : Bool)

theorem defineStream_slots (p : Port) : SlotsChange (gapCountNow s) s.table (defineStream p args s).1.table := by
  unfold defineStream
  split
  · exact slotsChange_of_eq rfl
  split
  · exact slotsChange_of_eq rfl
  split
  · exact slotsChange_of_eq rfl
  · exact slotsChange_setSlot (.rewritten (.defined ..))

theorem redefineStream_slots : SlotsChange gap s.table (redefineStream upset args s).1.table := by
  unfold redefineStream
  split
  · exact slotsChange_of_eq rfl
  · refine onRecord_slots s _ upset fun sl t live found => ?_
    unfold redefineSlot
    split
    · exact slotsChange_setSlot (by rw [found]; exact .rewritten (.redefined live ..))
    · exact slotsChange_of_eq rfl

theorem retireStream_slots (p : Port) : SlotsChange gap s.table (retireStream p args s).1.table := by
  unfold retireStream
  dsimp only
  split
  · exact slotsChange_of_eq rfl
  split
  · exact slotsChange_of_eq rfl
  · exact slotsChange_setSlot (.rewritten (.freed _))

theorem setGrading_slots : SlotsChange gap s.table (setGrading upset args s).1.table := by
  unfold setGrading
  split
  · exact slotsChange_of_eq rfl
  · refine onRecord_slots s _ upset fun sl t _ found => ?_
    exact slotsChange_setSlot (by rw [found]; exact .rewritten (.regraded _))

theorem readDefinition_slots : SlotsChange gap s.table (readDefinition upset args s).1.table := by
  unfold readDefinition
  split
  · exact slotsChange_of_eq rfl
  · exact onRecord_slots s _ upset fun _ _ _ _ => slotsChange_of_eq rfl

theorem readWindow_slots : SlotsChange gap s.table (readWindow upset args s).1.table := by
  unfold readWindow
  split
  · exact slotsChange_of_eq rfl
  · exact onRecord_slots s _ upset fun _ _ _ _ => slotsChange_of_eq rfl

theorem readSheet_slots (p : Port) : SlotsChange gap s.table (readSheet p upset args s).1.table := by
  unfold readSheet
  dsimp only
  split
  · exact onRecord_slots s _ upset fun _ _ _ _ => slotsChange_of_eq rfl
  · exact slotsChange_of_eq rfl

theorem readGrades_slots : SlotsChange gap s.table (readGrades upset args s).1.table := by
  unfold readGrades
  split
  · exact slotsChange_of_eq rfl
  · exact onRecord_slots s _ upset fun _ _ _ _ => slotsChange_of_eq rfl

theorem startMark_slots (p : Port) : SlotsChange gap s.table (startMark p args s).1.table := by
  unfold startMark
  split <;> exact slotsChange_of_eq rfl

end

/-! ### The Cycle Monitor (02) -/

theorem takePulse_slots {gap : Nat} (dt : Nat) (s : State) : SlotsChange gap s.table (takePulse dt s).table := by
  unfold takePulse pulseAcquiring pulseLocked pulseHoldover
  dsimp only
  repeat' split
  all_goals exact slotsChange_of_eq rfl

theorem takeExpiry_slots {gap : Nat} (s : State) : SlotsChange gap s.table (takeExpiry s).table := by
  unfold takeExpiry expireLocked expireHoldover endHoldoverAtLimit
  repeat' split
  all_goals exact slotsChange_of_eq rfl

/-! ### Every command -/

section

variable {s : State}

theorem whenRunning_slots {gap : Nat} {f : State → State} (h : SlotsChange gap s.table (f s).table) :
    SlotsChange gap s.table (whenRunning f s).table := by
  obtain hw | hw := whenRunning_cases f s
  · rw [hw]; exact slotsChange_of_eq rfl
  · rwa [hw]

theorem serve_slots {c : Command} {p : Port} {f : List Byte → State → Served}
    (hf : ∀ args t, SlotsChange (gapCountNow t) t.table (f args t).1.table) :
    SlotsChange (gapCountNow s) s.table (serve c p f s).table := by
  obtain h | ⟨args, _, ⟨_, h⟩ | ⟨ans, _, h⟩⟩ := serve_cases c p f s <;> rw [h]
  · exact slotsChange_of_eq rfl
  · exact hf args (putPort s p (markTaken (s.ports.get p)))
  · exact hf args (putPort s p (markTaken (s.ports.get p)))

theorem underLock_slots {gap : Nat} {p : Port} {f : List Byte → State → Served} (args : List Byte)
    (hf : SlotsChange gap s.table (f args s).1.table) : SlotsChange gap s.table (underLock p f args s).1.table := by
  unfold underLock
  split
  · exact hf
  · exact slotsChange_of_eq rfl

/-- CLEAR-STRAYS leaves the slots as they are (R52). -/
theorem clearStrays_slots {gap : Nat} (args : List Byte) : SlotsChange gap s.table (noArgs clearStrays args s).1.table := by
  unfold noArgs
  split <;> exact slotsChange_of_eq rfl

end

/-- Every command answers a next state, and changes the slots in no other way. -/
theorem exec_slots (c : Instr) (s : State) : ∃ t, exec c s = .next t ∧ SlotsChange (gapCountNow s) s.table t.table := by
  cases hc : (touches c).table with
  | false =>
    obtain ⟨t, ht, within⟩ := exec_within c s
    exact ⟨t, ht, slotsChange_of_eq (by rw [within.table hc])⟩
  | true =>
    cases c with
    -- RESET and the parts of port reset and soft reset
    | resetAssert => exact ⟨_, rfl, slotsChange_reset⟩
    | resetRelease =>
      refine ⟨_, rfl, ?_⟩
      split
      · exact slotsChange_reset
      · exact slotsChange_of_eq rfl
    | portResetMarks p =>
      refine ⟨_, rfl, ?_⟩
      split
      · split
        · exact slotsChange_of_eq rfl
        · exact slotsChange_mapSlots _ fun _ => slotChange_unmarkSlot p
      · exact slotsChange_of_eq rfl
    | softResetVisit issuer upsets =>
      refine ⟨_, rfl, ?_⟩
      split
      · split
        · exact visitTable_slots s upsets
        · exact slotsChange_of_eq rfl
      · exact slotsChange_of_eq rfl
    -- events of the blocks
    | lineCyclePulse dt => exact ⟨_, rfl, whenRunning_slots (takePulse_slots dt s)⟩
    | timerExpiry => exact ⟨_, rfl, whenRunning_slots (takeExpiry_slots s)⟩
    | silenceCheck u => exact ⟨_, rfl, whenRunning_slots (stepSilence_slots s u)⟩
    | ratingStep u => exact ⟨_, rfl, whenRunning_slots (stepRating_slots s u)⟩
    | frameTake u => exact ⟨_, rfl, whenRunning_slots (takeFrame_slots s u)⟩
    | clearStep upset => exact ⟨_, rfl, whenRunning_slots (stepClear_slots s upset)⟩
    | scrubStep upset => exact ⟨_, rfl, whenRunning_slots (stepScrub_slots s upset)⟩
    | markVisit p upset => exact ⟨_, rfl, whenRunning_slots (stepMark_slots s p upset)⟩
    -- commands of the book
    | defineStream p => exact ⟨_, rfl, serve_slots fun args t => underLock_slots args (defineStream_slots t args p)⟩
    | redefineStream p upset =>
      exact ⟨_, rfl, serve_slots fun args t => underLock_slots args (redefineStream_slots t args upset)⟩
    | retireStream p => exact ⟨_, rfl, serve_slots fun args t => underLock_slots args (retireStream_slots t args p)⟩
    | setGrading p upset => exact ⟨_, rfl, serve_slots fun args t => underLock_slots args (setGrading_slots t args upset)⟩
    | clearStrays p => exact ⟨_, rfl, serve_slots fun args t => underLock_slots args (clearStrays_slots args)⟩
    | readDefinition p upset => exact ⟨_, rfl, serve_slots fun args t => readDefinition_slots t args upset⟩
    | readWindow p upset => exact ⟨_, rfl, serve_slots fun args t => readWindow_slots t args upset⟩
    | readSheet p upset => exact ⟨_, rfl, serve_slots fun args t => readSheet_slots t args upset p⟩
    | readGrades p upset => exact ⟨_, rfl, serve_slots fun args t => readGrades_slots t args upset⟩
    | mark p => exact ⟨_, rfl, serve_slots fun args t => startMark_slots t args p⟩
    | _ => cases hc

end Sys2Proof.Machine
end

section
/-! SUPPORT. The window, the path trackers and the lateness check case by case (04, R60 to R75). -/

namespace Sys2Proof.Machine

open Sys2Proof.Safety

/-! ### The six cases of the window (R65 to R72) -/

/-- Where a sequence lies in each case: by its offset in the window, its distance from the high mark, and its distance before the
base. -/
@[reducible] def FallsIn (r : Record) (s : Half) : WindowCase → Prop
  | .repeated => (s - r.base).toNat < 32 ∧ r.acceptedSet.getLsbD (s - r.base).toNat = true
  | .newAfter => (s - r.base).toNat < 32 ∧ r.acceptedSet.getLsbD (s - r.base).toNat = false ∧ 0 < (s - r.high).toInt
  | .newBefore => (s - r.base).toNat < 32 ∧ r.acceptedSet.getLsbD (s - r.base).toNat = false ∧ (s - r.high).toInt ≤ 0
  | .slide => 32 ≤ (s - r.base).toNat ∧ 0 < (s - r.high).toInt ∧ (s - r.high).toInt ≤ r.definition.jump
  | .straggler => 32 ≤ (s - r.base).toNat ∧ (s - r.high).toInt ≤ 0 ∧ (r.base - s).toNat ≤ r.definition.jump
  | .sequenceBreak => 32 ≤ (s - r.base).toNat ∧ ((r.definition.jump : Int) < (s - r.high).toInt
      ∨ ((s - r.high).toInt ≤ 0 ∧ r.definition.jump < (r.base - s).toNat))

/-- The tests of the window, each on its own distance. -/
theorem windowCase_eq (r : Record) (s : Half) :
    windowCase r s =
      if (s - r.base).toNat < 32 then
        if r.acceptedSet.getLsbD (s - r.base).toNat = true then .repeated
        else if 0 < (s - r.high).toInt then .newAfter else .newBefore
      else if 0 < (s - r.high).toInt then
        if (s - r.high).toInt ≤ r.definition.jump then .slide else .sequenceBreak
      else if (r.base - s).toNat ≤ r.definition.jump then .straggler else .sequenceBreak := by
  unfold windowCase inAcceptedSet withinWindow seqDiff
  by_cases within : (s - r.base).toNat < 32
  · simp only [within, decide_true, Bool.true_and, if_true]
  · simp only [within, decide_false, Bool.false_eq_true, if_false]

/-- Every sequence lies where its case has it. -/
theorem fallsIn_windowCase (r : Record) (s : Half) : FallsIn r s (windowCase r s) := by
  rw [windowCase_eq]
  split
  · next within =>
    split
    · next accepted => exact ⟨within, accepted⟩
    · next new =>
      split
      · next after => exact ⟨within, Bool.eq_false_iff.mpr new, after⟩
      · next before => exact ⟨within, Bool.eq_false_iff.mpr new, Int.not_lt.mp before⟩
  · next outside =>
    split
    · next after =>
      split
      · next reach => exact ⟨Nat.not_lt.mp outside, after, reach⟩
      · next far => exact ⟨Nat.not_lt.mp outside, .inl (Int.not_le.mp far)⟩
    · next before =>
      split
      · next reach => exact ⟨Nat.not_lt.mp outside, Int.not_lt.mp before, reach⟩
      · next far => exact ⟨Nat.not_lt.mp outside, .inr ⟨Int.not_lt.mp before, Nat.not_le.mp far⟩⟩

/-- The cases shut one another out and leave no sequence over. -/
theorem windowCase_iff {r : Record} {s : Half} {c : WindowCase} : windowCase r s = c ↔ FallsIn r s c := by
  refine ⟨fun h => h ▸ fallsIn_windowCase r s, fun h => ?_⟩
  cases c with
  | repeated =>
    obtain ⟨within, accepted⟩ := h
    rw [windowCase_eq, if_pos within, if_pos accepted]
  | newAfter =>
    obtain ⟨within, new, after⟩ := h
    rw [windowCase_eq, if_pos within, if_neg (Bool.eq_false_iff.mp new), if_pos after]
  | newBefore =>
    obtain ⟨within, new, before⟩ := h
    rw [windowCase_eq, if_pos within, if_neg (Bool.eq_false_iff.mp new), if_neg (Int.not_lt.mpr before)]
  | slide =>
    obtain ⟨outside, after, reach⟩ := h
    rw [windowCase_eq, if_neg (Nat.not_lt.mpr outside), if_pos after, if_pos reach]
  | straggler =>
    obtain ⟨outside, before, reach⟩ := h
    rw [windowCase_eq, if_neg (Nat.not_lt.mpr outside), if_neg (Int.not_lt.mpr before), if_pos reach]
  | sequenceBreak => exact (windowCase_sequenceBreak r s).mpr h

/-! ### What the window makes of a frame (R66 to R72) -/

/-- The reference after the lateness check (R74). -/
theorem anchor_eq (r : Record) (f : Frame) :
    anchor r f = { r with refSeq := if isLate r f then r.refSeq else f.seq, refTick := if isLate r f then r.refTick else f.tick } := by
  unfold anchor
  split <;> rfl

/-- Tracker B is consulted in a DUAL stream on path B, and tracker A else (R60). -/
theorem trackerFor_eq (r : Record) (path : PathCode) :
    trackerFor r path = if r.definition.dual = true ∧ path = .b then r.trackerB else r.trackerA := by
  simp [trackerFor]

theorem setTrackerFor_eq (r : Record) (path : PathCode) (t : Tracker) :
    setTrackerFor r path t = if r.definition.dual = true ∧ path = .b then { r with trackerB := t } else { r with trackerA := t } := by
  simp [setTrackerFor]

/-- Replacing the tracker of a frame's path, tracker by tracker. -/
theorem setTrackerFor_fields (r : Record) (path : PathCode) (t : Tracker) :
    setTrackerFor r path t =
      { r with trackerA := if r.definition.dual = true ∧ path = .b then r.trackerA else t,
               trackerB := if r.definition.dual = true ∧ path = .b then t else r.trackerB } := by
  rw [setTrackerFor_eq]
  split <;> rfl

section

variable {r : Record} {f : Frame} {epoch : Byte} {ooo : Bool}

theorem judgeWindow_repeated (h : windowCase r f.seq = .repeated) :
    judgeWindow r f epoch ooo = { record := r, incs := { (Nine.all 0 : Nine Nat) with duplicate := 1 }, broke := false } := by
  simp [judgeWindow, h]

theorem judgeWindow_newAfter (h : windowCase r f.seq = .newAfter) :
    judgeWindow r f epoch ooo =
      { record := anchor (acceptWithin r f.seq true) f,
        incs := { (Nine.all 0 : Nine Nat) with accepted := 1, late := one (isLate r f) }, broke := false } := by
  simp [judgeWindow, h]

theorem judgeWindow_newBefore (h : windowCase r f.seq = .newBefore) :
    judgeWindow r f epoch ooo =
      { record := anchor (acceptWithin r f.seq false) f,
        incs := { (Nine.all 0 : Nine Nat) with accepted := 1, late := one (isLate r f), reordered := one ooo,
                                               rescued := one (r.definition.dual && !ooo) }, broke := false } := by
  simp [judgeWindow, h]

theorem judgeWindow_slide (h : windowCase r f.seq = .slide) :
    judgeWindow r f epoch ooo =
      { record := anchor (slideWindow r f.seq) f,
        incs := { (Nine.all 0 : Nine Nat) with accepted := 1, late := one (isLate r f), dropped := slideDrops r f.seq },
        broke := false } := by
  simp [judgeWindow, h]

theorem judgeWindow_straggler (h : windowCase r f.seq = .straggler) :
    judgeWindow r f epoch ooo = { record := r, incs := { (Nine.all 0 : Nine Nat) with straggler := 1 }, broke := false } := by
  simp [judgeWindow, h]

theorem judgeWindow_sequenceBreak (h : windowCase r f.seq = .sequenceBreak) :
    judgeWindow r f epoch ooo =
      { record := breakRecord r f epoch, incs := { (Nine.all 0 : Nine Nat) with accepted := 1 }, broke := true } := by
  simp [judgeWindow, h]

/-- A frame breaks the sequence in the case of that name alone. -/
theorem judgeWindow_broke : (judgeWindow r f epoch ooo).broke = true ↔ windowCase r f.seq = .sequenceBreak := by
  cases h : windowCase r f.seq <;> simp [judgeWindow, h]

end

/-! ### The window law (R65) -/

/-- Two sequences of one window are as far apart as their offsets in it. -/
theorem toInt_sub_of_within {a b base : Half} (ha : (a - base).toNat < 32) (hb : (b - base).toNat < 32) :
    (a - b).toInt = (a - base).toNat - (b - base).toNat := by
  have split : a - b = (a - base) - (b - base) := by bv_omega
  rw [split, BitVec.toInt_sub, BitVec.toInt_eq_toNat_of_lt (by omega), BitVec.toInt_eq_toNat_of_lt (by omega)]
  exact Int.bmod_eq_of_le (by omega) (by omega)

theorem getLsbD_accepted (set : BitVec 32) {k : Nat} (hk : k < 32) (i : Nat) :
    (set ||| 1#32 <<< k).getLsbD i = (set.getLsbD i || decide (i = k)) := by
  by_cases hi : i < 32
  · simp only [BitVec.getLsbD_or, BitVec.getLsbD_shiftLeft, BitVec.getLsbD_one, hi]
    congr 1
    simp only [decide_true, Bool.true_and, ← Bool.decide_and]
    by_cases h : i < k <;> simp [h] <;> omega
  · rw [BitVec.getLsbD_of_ge _ _ (by omega), BitVec.getLsbD_of_ge _ _ (by omega)]
    rw [Bool.false_or, decide_eq_false (by omega)]

/-- The window law speaks of the window's base, high mark and accepted set alone. -/
theorem windowOk_congr {r r' : Record} (hb : r'.base = r.base) (hh : r'.high = r.high) (ha : r'.acceptedSet = r.acceptedSet) :
    WindowOk r' ↔ WindowOk r := by
  simp only [WindowOk, hb, hh, ha]

/-- A window that starts from one frame: B and H are its sequence, accepted alone (R59, R72). -/
theorem windowOk_of_started {r : Record} (hh : r.high = r.base) (ha : r.acceptedSet = 1) : WindowOk r := by
  have head : (r.high - r.base).toNat = 0 := by simp [hh]
  rw [WindowOk, head, ha]
  refine ⟨by decide, by decide, fun i hi => ?_⟩
  simp [show (1 : BitVec 32) = 1#32 from rfl, BitVec.getLsbD_one]
  omega

section

variable {r : Record} {s : Half}

theorem windowOk_acceptWithin_after (hr : WindowOk r) (within : (s - r.base).toNat < 32) (after : 0 < (s - r.high).toInt) :
    WindowOk (acceptWithin r s true) := by
  obtain ⟨below, -, above⟩ := hr
  rw [toInt_sub_of_within within below] at after
  simp only [WindowOk, acceptWithin, sequenceBit, if_true, getLsbD_accepted _ within]
  refine ⟨within, by simp only [decide_true, Bool.or_true], fun i hi => ?_⟩
  simp only [above i (by omega), Bool.false_or, decide_eq_false_iff_not]
  omega

theorem windowOk_acceptWithin_before (hr : WindowOk r) (within : (s - r.base).toNat < 32) (before : (s - r.high).toInt ≤ 0) :
    WindowOk (acceptWithin r s false) := by
  obtain ⟨below, head, above⟩ := hr
  rw [toInt_sub_of_within within below] at before
  simp only [WindowOk, acceptWithin, sequenceBit, Bool.false_eq_true, if_false, getLsbD_accepted _ within]
  refine ⟨below, by simp only [head, Bool.true_or], fun i hi => ?_⟩
  simp only [above i hi, Bool.false_or, decide_eq_false_iff_not]
  omega

theorem windowOk_slideWindow : WindowOk (slideWindow r s) := by
  have head : (s - (s - 31)).toNat = 31 := by bv_omega
  simp only [WindowOk, slideWindow, head, getLsbD_accepted _ (show 31 < 32 by decide)]
  refine ⟨by decide, by simp, fun i hi => ?_⟩
  rw [BitVec.getLsbD_of_ge _ _ (by omega)]
  rw [Bool.false_or, decide_eq_false (by omega)]

theorem windowOk_anchor {f : Frame} (h : WindowOk r) : WindowOk (anchor r f) := by
  rw [anchor_eq]
  exact h

/-- The window's judgement keeps the window law, case by case. -/
theorem windowOk_judgeWindow {f : Frame} {epoch : Byte} {ooo : Bool} (hr : WindowOk r) :
    WindowOk (judgeWindow r f epoch ooo).record := by
  cases h : windowCase r f.seq with
  | repeated => rwa [judgeWindow_repeated h]
  | straggler => rwa [judgeWindow_straggler h]
  | newAfter =>
    obtain ⟨within, -, after⟩ := windowCase_iff.mp h
    rw [judgeWindow_newAfter h]
    exact windowOk_anchor (windowOk_acceptWithin_after hr within after)
  | newBefore =>
    obtain ⟨within, -, before⟩ := windowCase_iff.mp h
    rw [judgeWindow_newBefore h]
    exact windowOk_anchor (windowOk_acceptWithin_before hr within before)
  | slide =>
    rw [judgeWindow_slide h]
    exact windowOk_anchor windowOk_slideWindow
  | sequenceBreak =>
    rw [judgeWindow_sequenceBreak h, breakRecord, startTracker, setTrackerFor_fields]
    exact windowOk_of_started rfl rfl

end

/-! ### Path tracking and the start of a stream (R59 to R63) -/

/-- Path tracking touches nothing but a tracker. -/
theorem windowOk_setTrackerFor {r : Record} (path : PathCode) (t : Tracker) :
    WindowOk (setTrackerFor r path t) ↔ WindowOk r := by
  rw [setTrackerFor_fields]
  exact windowOk_congr rfl rfl rfl

theorem windowOk_classifyTracked {r : Record} (hr : WindowOk r) (f : Frame) (epoch : Byte) :
    WindowOk (classifyTracked r f epoch).record :=
  windowOk_judgeWindow ((windowOk_setTrackerFor ..).mpr hr)

theorem windowOk_acquire (r : Record) (f : Frame) (epoch : Byte) : WindowOk (acquire r f epoch).record :=
  (windowOk_setTrackerFor ..).mpr (windowOk_of_started rfl rfl)

/-! ### The drops of a slide (R69) -/

/-- A predicate that is false from `m` on is counted below `m`. -/
theorem countP_range_of_above {p : Nat → Bool} {m n : Nat} (le : m ≤ n) (above : ∀ i, m ≤ i → p i = false) :
    (List.range n).countP p = (List.range m).countP p := by
  obtain ⟨k, rfl⟩ := Nat.exists_eq_add_of_le le
  have rest : (List.range k).countP (p ∘ (m + ·)) = 0 := List.countP_eq_zero.mpr fun i _ => by simp [above]
  rw [List.range_add, List.countP_append, List.countP_map, rest, Nat.add_zero]

/-- The accepted sequences below an offset, which past the 32 places of the set are all that there are. -/
theorem acceptedBelow_eq (set : BitVec 32) (n : Nat) :
    acceptedBelow set n = (List.range n).countP (fun i => set.getLsbD i) := by
  unfold acceptedBelow
  obtain le | le := Nat.le_total n 32
  · rw [countP_range_of_above le fun i hi => by simp [Nat.not_lt.mpr hi]]
    exact List.countP_congr fun i hi => by simp [List.mem_range.mp hi]
  · rw [countP_range_of_above le fun i hi => BitVec.getLsbD_of_ge set i hi]
    exact List.countP_congr fun i hi => by simp [Nat.lt_of_lt_of_le (List.mem_range.mp hi) le]

/-- The drops of a slide are the sequences below the new base that are not accepted. -/
theorem slideDrops_eq (r : Record) (s : Half) :
    slideDrops r s = (List.range (slideDistance r s)).countP (fun i => !r.acceptedSet.getLsbD i) := by
  have all := List.length_eq_countP_add_countP (fun i => r.acceptedSet.getLsbD i) (l := List.range (slideDistance r s))
  rw [List.length_range] at all
  have others : (List.range (slideDistance r s)).countP (fun i => !r.acceptedSet.getLsbD i)
      = (List.range (slideDistance r s)).countP (fun i => decide ¬r.acceptedSet.getLsbD i = true) :=
    List.countP_congr fun i _ => by simp
  rw [slideDrops, acceptedBelow_eq, others]
  omega

/-- A slide's distance, from how far its sequence lies after H and how far H lies above B (R69). -/
theorem slideDistance_eq {r : Record} {s : Half} (below : (r.high - r.base).toNat < 32) (outside : 32 ≤ (s - r.base).toNat)
    (after : 0 < (s - r.high).toInt) :
    (slideDistance r s + 31 : Int) = (s - r.high).toInt + (r.high - r.base).toNat := by
  have signed := BitVec.toInt_eq_toNat_cond (s - r.high)
  unfold slideDistance
  bv_omega

/-- A slide drops at most J - 1 sequences: it moves B by less than J, or by at most J past H, which is accepted (R69). -/
theorem slideDrops_le {r : Record} {s : Half} (hr : WindowOk r) (hj : 32 ≤ r.definition.jump) (outside : 32 ≤ (s - r.base).toNat)
    (after : 0 < (s - r.high).toInt) (reach : (s - r.high).toInt ≤ r.definition.jump) :
    slideDrops r s ≤ r.definition.jump - 1 := by
  obtain ⟨below, head, -⟩ := hr
  have distance := slideDistance_eq below outside after
  unfold slideDrops
  by_cases passed : (r.high - r.base).toNat < slideDistance r s
  · have counted : 0 < acceptedBelow r.acceptedSet (slideDistance r s) := by
      rw [acceptedBelow_eq, List.countP_pos_iff]
      exact ⟨_, List.mem_range.mpr passed, head⟩
    omega
  · omega

/-- A frame is late when it lies within reach of the reference and came too long after it (R74, R75). -/
theorem isLate_iff (r : Record) (f : Frame) :
    isLate r f = true ↔ -(r.definition.jump : Int) ≤ seqDiff f.seq r.refSeq ∧ seqDiff f.seq r.refSeq ≤ r.definition.jump
      ∧ (r.definition.lateWindow : Int) < lateness r f := by
  simp only [isLate, withinReach, Bool.and_eq_true, decide_eq_true_eq]
  rw [and_assoc, and_left_comm]

/-! ### What the judgement leaves of a record (R57 to R75) -/

/-- A record apart from its window, trackers and reference. -/
def withoutWindow (r : Record) : Record :=
  { r with base := 0, high := 0, acceptedSet := 0, trackerA := .absent, trackerB := .absent, refSeq := 0, refTick := 0 }

theorem withoutWindow_setTrackerFor (r : Record) (path : PathCode) (t : Tracker) :
    withoutWindow (setTrackerFor r path t) = withoutWindow r := by
  rw [setTrackerFor_fields]
  rfl

theorem withoutWindow_anchor (r : Record) (f : Frame) : withoutWindow (anchor r f) = withoutWindow r := by
  rw [anchor_eq]
  rfl

theorem withoutWindow_judgeWindow (r : Record) (f : Frame) (epoch : Byte) (ooo : Bool) :
    withoutWindow (judgeWindow r f epoch ooo).record = withoutWindow r := by
  cases h : windowCase r f.seq with
  | repeated => rw [judgeWindow_repeated h]
  | straggler => rw [judgeWindow_straggler h]
  | newAfter => rw [judgeWindow_newAfter h, withoutWindow_anchor]; rfl
  | newBefore => rw [judgeWindow_newBefore h, withoutWindow_anchor]; rfl
  | slide => rw [judgeWindow_slide h, withoutWindow_anchor]; rfl
  | sequenceBreak => rw [judgeWindow_sequenceBreak h, breakRecord, startTracker, withoutWindow_setTrackerFor]; rfl

theorem withoutWindow_classifyTracked (r : Record) (f : Frame) (epoch : Byte) :
    withoutWindow (classifyTracked r f epoch).record = withoutWindow r :=
  (withoutWindow_judgeWindow ..).trans (withoutWindow_setTrackerFor ..)

theorem withoutWindow_acquire (r : Record) (f : Frame) (epoch : Byte) :
    withoutWindow (acquire r f epoch).record = withoutWindow r :=
  withoutWindow_setTrackerFor (startWindow r f) f.path _

end Sys2Proof.Machine
end

section
/-! SUPPORT. The laws of the records that every step keeps: the window law, the accounts, and the gap stamps (R65, R76, R82, R84, R90,
R104, R107). -/

namespace Sys2Proof.Safety

open Sys2Proof.Machine

/-! ### The window law (R65) -/

/-- A law of each slot by itself is kept by every step when every change of a slot keeps it. -/
theorem keptByEveryStep_of_slotChange {ok : Slot → Prop} (hc : ∀ gap a b, SlotChange gap a b → ok a → ok b) :
    KeptByEveryStep (fun s => ∀ n, ok (slotAt s.table n)) := by
  refine keptByEveryStep_of _ (fun _ _ h => h) (fun _ h => h) fun c s t hs ht n => ?_
  obtain ⟨u, hu, change⟩ := exec_slots c s
  obtain rfl : u = t := Host.Outcome.next.inj (hu.symm.trans ht)
  exact hc _ _ _ (change n) (hs n)

/-- The window law of a slot in a state. -/
def WindowHolds (st : SlotState) (r : Record) : Prop := st = .tracking ∨ st = .stale → WindowOk r

theorem windowHolds_of_rewrites {gap : Nat} {st st' : SlotState} {r r' : Record} (h : Rewrites gap st r st' r')
    (hr : WindowHolds st r) : WindowHolds st' r' := by
  cases h with
  | kept | marked | unmarked | cleared | rated | regraded => exact hr
  | freed | defined | redefined | softReset => intro moving; simp at moving
  | acquired => exact fun _ => windowOk_acquire ..
  | tracked state => exact fun _ => windowOk_classifyTracked (hr state) ..
  | silent state => exact fun _ => hr (.inl state)

/-- Settles O33: a FAULTED slot has no window to keep, and every rewriting of a slot keeps its window. -/
theorem everyStepKeepsTheWindowLaw : Obligations.EveryStepKeepsTheWindowLaw := by
  refine keptByEveryStep_of_slotChange (ok := fun sl => WindowHolds sl.state sl.record) fun gap a b change ha => ?_
  cases change with
  | rewritten h => exact windowHolds_of_rewrites h ha
  | faulted _ _ hb => intro moving; simp [hb] at moving

/-! ### The accounts (R76, R82, R84, R104, R107) -/

/-- A saturating count does not fall. -/
theorem le_satAdd {limit n k : Nat} (h : n ≤ limit) : n ≤ satAdd limit n k := Nat.le_min.mpr ⟨h, Nat.le_add_right n k⟩

theorem satAdd_le (limit n k : Nat) : satAdd limit n k ≤ limit := Nat.min_le_left ..

theorem accountsOk_fresh (d : Definition) (settings : PerGrade GradeSetting) (gap : Nat) : AccountsOk (.fresh d settings gap) := by
  refine ⟨fun c => ?_, fun p c => ?_, fun g => ?_, fun g => ?_, Nat.zero_le _, Nat.zero_le _⟩ <;>
    simp [Record.fresh, GradeState.clean]

/-- The accounts of a record do not lie in what the window's judgement changes. -/
theorem accountsOk_of_withoutWindow {r r' : Record} (h : withoutWindow r' = withoutWindow r) (hr : AccountsOk r) :
    AccountsOk r' := by
  have same : AccountsOk (withoutWindow r') := h ▸ hr
  exact same

theorem accountsOk_accountFrame {r : Record} (hr : AccountsOk r) (f : Frame) (incs : Nine Nat) (cycle : Word) :
    AccountsOk (accountFrame r f incs cycle) := by
  obtain ⟨tallies, marks, grades, intervals, rated, history⟩ := hr
  have summed (c : Tally) : (accountFrame r f incs cycle).tallies.get c = satAdd max32 (r.tallies.get c) (incs.get c) :=
    nineMap2_get ..
  refine ⟨fun c => ?_, fun p c => ?_, grades, fun g => ?_, rated, ?_⟩
  · rw [summed]
    exact satAdd_le ..
  · rw [summed]
    exact Nat.le_trans (marks p c) (le_satAdd (tallies c))
  · cases g <;> exact satAdd_le ..
  · exact Nat.succ_le_succ (List.length_take_le _ _)

/-- A rated grade lies in its range, and its worst follows it down (R107). -/
theorem rateGrade_range {g : GradeState} (c : GradeSetting) (n : Nat) (h : 1 ≤ g.worst) :
    1 ≤ (rateGrade g c n).worst ∧ (rateGrade g c n).worst ≤ (rateGrade g c n).current ∧ (rateGrade g c n).current ≤ 200 := by
  simp only [rateGrade, gradeOf]
  omega

theorem accountsOk_ratedRecord {r : Record} (hr : AccountsOk r) : AccountsOk (ratedRecord r) := by
  obtain ⟨tallies, marks, grades, intervals, rated, history⟩ := hr
  refine ⟨tallies, marks, fun g => ?_, fun g => ?_, satAdd_le .., history⟩
  · cases g with
    | loss => exact rateGrade_range _ _ (grades .loss).1
    | timing => exact rateGrade_range _ _ (grades .timing).1
    | order => exact rateGrade_range _ _ (grades .order).1
    | path => exact rateGrade_range _ _ (grades .path).1
  · cases g <;> exact Nat.zero_le _

/-- A record with some of its tallies' marks replaced by marks that do not exceed them. -/
theorem accountsOk_setMarks {r : Record} (hr : AccountsOk r) (p : Port) {m : Nine Nat} (hm : ∀ c, m.get c ≤ r.tallies.get c) :
    AccountsOk { r with marks := r.marks.set p m } := by
  obtain ⟨tallies, marks, rest⟩ := hr
  refine ⟨tallies, fun q c => ?_, rest⟩
  dsimp only
  rw [PerPort.get_set]
  split
  · exact hm c
  · exact marks q c

theorem accountsOk_clearedRecord {r : Record} (hr : AccountsOk r) (gap : Nat) : AccountsOk (clearedRecord gap r) := by
  obtain ⟨tallies, marks, grades, intervals, rated, history⟩ := hr
  refine ⟨fun c => ?_, fun p c => ?_, fun g => ?_, fun g => ?_, Nat.zero_le _, history⟩ <;>
    simp [clearedRecord, GradeState.clean]

/-- The accounts law of a slot in a state. -/
def AccountsHold (st : SlotState) (r : Record) : Prop := st ≠ .free → AccountsOk r

theorem accountsHold_of_rewrites {gap : Nat} {st st' : SlotState} {r r' : Record} (h : Rewrites gap st r st' r')
    (hr : AccountsHold st r) : AccountsHold st' r' := by
  cases h with
  | kept => exact hr
  | freed => exact fun held => absurd rfl held
  | defined | softReset => exact fun _ => accountsOk_fresh ..
  | redefined live =>
    obtain ⟨tallies, marks, grades, intervals, rated, -⟩ := hr (stateLive_iff.mp live).1
    exact fun _ => ⟨tallies, marks, grades, intervals, rated, Nat.zero_le _⟩
  | acquired state =>
    have ok := hr (by simp [state])
    exact fun _ => accountsOk_accountFrame (accountsOk_of_withoutWindow (withoutWindow_acquire ..) ok) ..
  | tracked state =>
    have ok := hr (by rintro rfl; simp at state)
    exact fun _ => accountsOk_accountFrame (accountsOk_of_withoutWindow (withoutWindow_classifyTracked ..) ok) ..
  | silent state => exact fun _ => hr (by simp [state])
  | marked p => exact fun held => accountsOk_setMarks (hr held) p fun _ => Nat.le_refl _
  | unmarked p => exact fun held => accountsOk_setMarks (hr held) p fun c => by simp
  | cleared => exact fun held => accountsOk_clearedRecord (hr held) gap
  | rated => exact fun held => accountsOk_ratedRecord (hr held)
  | regraded => exact hr

theorem everyStepKeepsAccountsLaw : KeptByEveryStep AccountsLaw := by
  refine keptByEveryStep_of_slotChange (ok := fun sl => AccountsHold sl.state sl.record) fun gap a b change ha => ?_
  cases change with
  | rewritten h => exact accountsHold_of_rewrites h ha
  | faulted h held => exact fun _ => accountsHold_of_rewrites h ha held

/-! ### Gap stamps and GAP_COUNT (R7, R90) -/

/-- The gap stamp of a DEFINED, TRACKING or STALE slot does not exceed a gap count. -/
def StampHolds (gap : Nat) (st : SlotState) (r : Record) : Prop := stateLive st = true → r.gapStamp ≤ gap

theorem stampHolds_of_rewrites {gap : Nat} {st st' : SlotState} {r r' : Record} (h : Rewrites gap st r st' r')
    (hr : StampHolds gap st r) : StampHolds gap st' r' := by
  cases h with
  | kept | marked | unmarked | rated | regraded => exact hr
  | freed => intro live; cases live
  | defined | cleared => exact fun _ => Nat.le_refl gap
  | softReset => exact fun _ => Nat.zero_le gap
  | redefined live => exact fun _ => hr live
  | acquired state f epoch cycle =>
    have same := congrArg Record.gapStamp (withoutWindow_acquire r f epoch)
    exact fun _ => Nat.le_trans (Nat.le_of_eq same) (hr (by simp [state, stateLive]))
  | tracked state f epoch cycle =>
    have same := congrArg Record.gapStamp (withoutWindow_classifyTracked r f epoch)
    exact fun _ => Nat.le_trans (Nat.le_of_eq same) (hr (by rcases state with rfl | rfl <;> rfl))
  | silent state => exact fun _ => hr (by simp [state, stateLive])

/-- A slot that a command has changed keeps to the gap count at the command. -/
theorem stampHolds_of_slotChange {gap : Nat} {a b : Slot} (change : SlotChange gap a b) (ha : StampHolds gap a.state a.record) :
    StampHolds gap b.state b.record := by
  cases change with
  | rewritten h => exact stampHolds_of_rewrites h ha
  | faulted _ _ hb => intro live; simp [hb, stateLive] at live

theorem gapCount_of_frameCounted {i j : Intake} (h : FrameCounted i j) : j.counters.gapCount = i.counters.gapCount := by
  cases h <;> rfl

theorem gapCount_le_of_intakeChange {i j : Intake} (h : IntakeChange i j) (hi : i.counters.gapCount ≤ max32) :
    j.counters.gapCount ≤ max32 := by
  cases h with
  | kept | strobe | accountRead | malformed | badFrame | admitted => exact hi
  | reset | softReset => exact Nat.zero_le _
  | linkApplied port => cases port <;> exact hi
  | frameTaken f rest _ front counted => rwa [gapCount_of_frameCounted counted]
  | lost =>
    unfold loseDescriptor
    dsimp only [setCounters]
    split
    · exact hi
    · exact satAdd_le ..

/-- A good descriptor adds to GAP_COUNT when it opens a loss episode, and else leaves it (R7). -/
theorem offerDescriptor_gapCount (d : Descriptor) (s : State) (h : gapCountNow s ≤ max32) :
    gapCountNow s ≤ gapCountNow (offerDescriptor d s) := by
  unfold offerDescriptor
  split
  · exact Nat.le_refl _
  · simp only [gapCountNow, loseDescriptor, setCounters]
    split
    · exact Nat.le_refl _
    · exact le_satAdd h

theorem takeRun_gapCount (bytes : List Byte) (s : State) (h : gapCountNow s ≤ max32) :
    gapCountNow s ≤ gapCountNow (takeRun bytes s) := by
  unfold takeRun
  split
  · exact Nat.le_refl _
  split
  · split
    · exact Nat.le_refl _
    · exact Nat.le_refl _
    · exact offerDescriptor_gapCount _ s h
  · exact Nat.le_refl _

theorem applyLink_gapCount (s : State) : gapCountNow (applyLink s) = gapCountNow s := by
  unfold applyLink
  split
  · next port up _ _ _ => cases port <;> rfl
  · rfl

theorem takeFrame_gapCount (u : Upset) (s : State) : gapCountNow (takeFrame u s) = gapCountNow s := by
  unfold takeFrame
  split
  · split
    · rfl
    · next f rest _ _ _ =>
      have same := gapCount_of_frameCounted
        (classifyFrame_counted f u { s with intake := { removeFront s.intake rest with frameCount := none } })
      exact same
  · rfl

theorem readIntake_gapCount (p : Port) (s : State) :
    gapCountNow (serve .readIntake p (noArgs readIntake) s) = gapCountNow s :=
  serve_keeps (fun t => gapCountNow t = gapCountNow s) .readIntake p _ s (fun _ _ h => h)
    (fun args t h => noArgs_keeps (fun t => gapCountNow t = gapCountNow s) readIntake args t (fun _ h => h) h) rfl

/-- What a command does to GAP_COUNT and the gap stamps: a soft reset is then under way, every stamp that counts is 0, or no soft
reset begins or ends and GAP_COUNT does not fall. -/
inductive GapChange (s t : State) : Prop where
  | underReset {p : Port} {parts : SoftResetParts} (h : t.softResets.get p = some parts)
  | cleared (h : ∀ n, stateLive (slotAt t.table n).state = true → (slotAt t.table n).record.gapStamp = 0)
  | counted (softResets : t.softResets = s.softResets) (rises : gapCountNow s ≤ max32 → gapCountNow s ≤ gapCountNow t)

theorem GapChange.refl (s : State) : GapChange s s := .counted rfl fun _ => Nat.le_refl _

theorem gapChange_reset {s t : State} (h : t.table = .reset) : GapChange s t := by
  refine .cleared fun n live => ?_
  rw [h, slotAt_reset] at live
  cases live

/-- The soft-reset visit leaves every slot that it has not faulted with gap stamp 0 (R54). -/
theorem softResetSlot_gapStamp {sl : Slot} (live : stateLive (softResetSlot sl).state = true) :
    (softResetSlot sl).record.gapStamp = 0 := by
  unfold softResetSlot at live ⊢
  split at live
  · next usable =>
    rw [if_pos usable]
    split at live
    · next good => rw [if_pos good]; rfl
    · cases live
  · next unusable => exact absurd live unusable

theorem gapChange_visitTable (s : State) (upsets : List Nat) {t : State} (h : t.table = (visitTable upsets s).table) :
    GapChange s t := by
  refine .cleared fun n live => ?_
  change _ = { mapSlots (upsetSlots s.table upsets) _ with strays := [] } at h
  have slot : slotAt t.table n = slotAt (mapSlots (upsetSlots s.table upsets) fun _ sl => softResetSlot sl) n := by rw [h]; rfl
  rw [slot] at live ⊢
  have lt := lt_of_slotAt_ne_free _ n (stateLive_iff.mp live).1
  rw [slotAt_mapSlots _ _ n lt] at live ⊢
  exact softResetSlot_gapStamp live

/-- No soft reset begins, or one of a port's. -/
def ResetBegins (p : Port) (s t : State) : Prop := t.softResets = s.softResets ∨ t.softResets.get p = some .begun

/-- SOFT-RESET begins a soft reset, or is refused (R170). -/
theorem serve_softReset_begins (p : Port) (s : State) :
    ResetBegins p s (serve .softReset p (underLock p (noArgs (softReset p))) s) := by
  have begins (t : State) : ResetBegins p s (softReset p t).1 := .inr (PerPort.get_set_same t.softResets p _)
  exact serve_keeps (ResetBegins p s) .softReset p _ s (fun _ _ h => h)
    (fun args t h => underLock_keeps (ResetBegins p s) p _ args t
      (fun args t h => noArgs_keeps (ResetBegins p s) (softReset p) args t (fun t _ => begins t) h) h) (.inl rfl)

theorem serve_softReset_gapChange (p : Port) (s : State) :
    GapChange s (serve .softReset p (underLock p (noArgs (softReset p))) s) := by
  have intake := serve_intake .softReset p _ s (underLock_intake p _ (noArgs_intake (softReset p) fun _ => rfl))
  obtain same | begun := serve_softReset_begins p s
  · exact .counted same fun _ => Nat.le_of_eq (by rw [gapCountNow, gapCountNow, intake])
  · exact .underReset begun

/-- Every command answers a next state, and changes GAP_COUNT and the gap stamps in no other way. -/
theorem exec_gapChange (c : Instr) (s : State) : ∃ t, exec c s = .next t ∧ GapChange s t := by
  cases hr : (touches c).softResets with
  | false =>
    obtain ⟨t, ht, within⟩ := exec_within c s
    refine ⟨t, ht, .counted (within.softResets hr) fun limit => ?_⟩
    cases hi : (touches c).intake with
    | false => exact Nat.le_of_eq (by rw [gapCountNow, gapCountNow, within.intake hi])
    | true =>
      have running (f : State → State) (hf : gapCountNow s ≤ gapCountNow (f s)) (h : t = whenRunning f s) :
          gapCountNow s ≤ gapCountNow t := by
        obtain hw | hw := whenRunning_cases f s
        · exact Nat.le_of_eq (by rw [h, hw])
        · exact Nat.le_trans hf (Nat.le_of_eq (by rw [h, hw]))
      cases c with
      | initEnd =>
        obtain rfl := Host.Outcome.next.inj ht
        split <;> exact Nat.le_refl _
      | descriptorRun bytes => exact running _ (takeRun_gapCount bytes s limit) (Host.Outcome.next.inj ht).symm
      | linkApply => exact running _ (Nat.le_of_eq (applyLink_gapCount s).symm) (Host.Outcome.next.inj ht).symm
      | frameTake u => exact running _ (Nat.le_of_eq (takeFrame_gapCount u s).symm) (Host.Outcome.next.inj ht).symm
      | readIntake p =>
        obtain rfl := Host.Outcome.next.inj ht
        exact Nat.le_of_eq (readIntake_gapCount p s).symm
      | resetAssert | resetRelease | softResetIntake => cases hr
      | _ => cases hi
  | true =>
    cases c with
    | resetAssert => exact ⟨_, rfl, gapChange_reset rfl⟩
    | resetRelease =>
      refine ⟨_, rfl, ?_⟩
      split
      · exact gapChange_reset rfl
      · exact .refl s
    | softReset p => exact ⟨_, rfl, serve_softReset_gapChange p s⟩
    -- a block's part of a soft reset, which does not end it
    | softResetNotices | softResetLock | softResetIntake | softResetSweep | softResetRating | softResetWatch =>
      refine ⟨_, rfl, ?_⟩
      split
      · split
        · exact .refl s
        · exact .underReset (PerPort.get_set_same ..)
      · exact .refl s
    | softResetPort | softResetLog =>
      refine ⟨_, rfl, ?_⟩
      split
      · split
        · exact .underReset (PerPort.get_set_same ..)
        · exact .refl s
      · exact .refl s
    | softResetVisit issuer upsets =>
      refine ⟨_, rfl, ?_⟩
      split
      · split
        · exact gapChange_visitTable s upsets rfl
        · exact .refl s
      · exact .refl s
    | _ => cases hr

/-- GAP_COUNT stops at its limit, and the gap stamps keep to it: a slot that counts is new, cleared or as it was (R7, R90). -/
theorem everyStepKeepsGapLaw : KeptByEveryStep GapLaw := by
  refine keptByEveryStep_of _ (fun _ _ h => h) (fun _ h => h) fun c s t hs ht => ?_
  obtain ⟨limit, stamps⟩ := hs
  obtain ⟨u, hu, intake⟩ := exec_intakeChange c s
  obtain rfl : u = t := Host.Outcome.next.inj (hu.symm.trans ht)
  refine ⟨gapCount_le_of_intakeChange intake limit, fun noReset n live => ?_⟩
  obtain ⟨v, hv, change⟩ := exec_gapChange c s
  obtain rfl : v = u := Host.Outcome.next.inj (hv.symm.trans ht)
  cases change with
  | underReset under => rw [noReset] at under; cases under
  | cleared zero => rw [zero n live]; exact Nat.zero_le _
  | counted softResets rises =>
    obtain ⟨w, hw, slots⟩ := exec_slots c s
    obtain rfl : w = v := Host.Outcome.next.inj (hw.symm.trans ht)
    rw [softResets] at noReset
    exact Nat.le_trans (stampHolds_of_slotChange (slots n) (stamps noReset n) live) (rises limit)

/-- Settles O37: each change that a command makes to a slot keeps its accounts, and each that it makes to GAP_COUNT and the gap
stamps keeps them apart. -/
theorem everyStepKeepsTheAccounts : Obligations.EveryStepKeepsTheAccounts := ⟨everyStepKeepsAccountsLaw, everyStepKeepsGapLaw⟩

end Sys2Proof.Safety
end

section
/-! SUPPORT. The frame of a stream case by case: whom it is taken for, what it leaves of the record, and what it hands over (04, R55 to
R59, R76 to R80). -/

namespace Sys2Proof.Machine

open Sys2Proof.Safety

/-! ### Whom a frame is taken for (R55, R56) -/

theorem classifyFrame_mapped {s : State} {f : Frame} {n : Nat} (h : MapsTo s f.tag n) (u : Upset) :
    classifyFrame f u s = takeForSlot n f u s := by
  obtain ⟨-, held, tag, only⟩ := h
  rw [classifyFrame, slotOfTag_eq_some s.table f.tag n held tag only]

section

variable {s : State} {n : Nat} (f : Frame)

theorem takeForSlot_faulted (u : Upset) (h : (slotAt s.table n).state = .faulted) :
    takeForSlot n f u s = countFaultedDiscard (putSlot s n (disturb u.before (slotAt s.table n))) := by
  simp [takeForSlot, h]

theorem takeForSlot_fails (u : Upset) (h : ParityFails s n u.before) :
    takeForSlot n f u s = countFaultedDiscard (afterFault s s.monitor.cycleCount n 1) := by
  obtain ⟨live, fails⟩ := h
  have bad : (disturb u.before (slotAt s.table n)).parityGood = false := fails
  rw [← failAccess_eq s s.monitor.cycleCount n 1 u.before fails]
  simp [takeForSlot, (stateLive_iff.mp live).2, bad, cycleNow]

theorem takeForSlot_noPath {u : Upset} (hu : u.before = false) (h : Readable s n)
    (dual : (slotAt s.table n).record.definition.dual = true) (path : f.path = .none) :
    takeForSlot n f u s = countMalformedClass s := by
  obtain ⟨live, good⟩ := h
  simp [takeForSlot, (stateLive_iff.mp live).2, good, hu, dual, path]

theorem takeForSlot_usable {u : Upset} (hu : u.before = false) (h : Readable s n)
    (usable : ¬((slotAt s.table n).record.definition.dual = true ∧ f.path = .none)) :
    takeForSlot n f u s = takeIntoRecord n (slotAt s.table n) f u.during s := by
  obtain ⟨live, good⟩ := h
  simp [takeForSlot, (stateLive_iff.mp live).2, good, hu, usable]

end

/-! ### The end of a frame's access (R47, R79, R80) -/

/-- The hand-off goes to the Watch Block, or waits for the frame's records. -/
theorem makeHandoff_eq (s : State) (h : Handoff) (cs : List Condition) :
    makeHandoff s h cs =
      { s with classifier := if cs = [] then s.classifier else some h,
               watch := if cs = [] then { s.watch with handoffs := s.watch.handoffs ++ [h] } else s.watch } := by
  cases cs <;> rfl

section

variable {s : State} {sl after : Slot} {f : Frame} {incs : Nine Nat} {drafts : List Draft} (n : Nat)
  (hc : (classify sl f (epochOf s.intake f.path)).incs = incs)
  (ha : slotAfterFrame sl f (epochOf s.intake f.path) (cycleNow s) = after)
  (hd : frameDrafts sl f (epochOf s.intake f.path) (cycleNow s) = drafts)

include hc ha hd

/-- A frame whose access ends with a good read: its conditions and its hand-off show the record as it then stands. -/
theorem takeIntoRecord_passes (good : sl.parityGood = true) :
    takeIntoRecord n sl f false s =
      makeHandoff
        (hand (putSlot s n after) .classifier
          (drafts.map (viewedCondition (cycleNow s) n sl.tag (some (viewOf after.record)))))
        (handoffOf n sl f incs (cycleNow s) (some (viewOf after.record)))
        (drafts.map (viewedCondition (cycleNow s) n sl.tag (some (viewOf after.record)))) := by
  subst hc ha hd
  have passes := endAccess_good (cycleNow s) n (slotAfterFrame sl f (epochOf s.intake f.path) (cycleNow s)) 1
    (frameDrafts sl f (epochOf s.intake f.path) (cycleNow s)) good
  simp only [takeIntoRecord, passes]
  rfl

/-- A frame whose access ends with a failing read: its effects stand, its conditions and its hand-off show nothing (R47). -/
theorem takeIntoRecord_fails :
    takeIntoRecord n sl f true s =
      { hand (putSlot s n { after with state := .faulted, parityGood := false }) .classifier
          (drafts.map (viewedCondition (cycleNow s) n sl.tag none) ++ [recordFault (cycleNow s) n sl.tag 1]) with
        classifier := some (handoffOf n sl f incs (cycleNow s) none) } := by
  subst hc ha hd
  have fails := endAccess_bad (cycleNow s) n (slotAfterFrame sl f (epochOf s.intake f.path) (cycleNow s)) 1
    (frameDrafts sl f (epochOf s.intake f.path) (cycleNow s))
  simp only [takeIntoRecord, fails, makeHandoff_eq]
  simp [faultSlot, disturb, slotAfterFrame]

end

/-! ### The first frame of a DEFINED stream (R59, R76, R77) -/

theorem satAdd_zero {limit n : Nat} (h : n ≤ limit) : satAdd limit n 0 = n := Nat.min_eq_right h

theorem nine_ext {α : Type} {v w : Nine α} (h : ∀ c, v.get c = w.get c) : v = w := by
  cases v
  cases w
  exact Nine.mk.injEq .. ▸
    ⟨h .accepted, h .dropped, h .late, h .reordered, h .rescued, h .duplicate, h .straggler, h .missedA, h .missedB⟩

/-- An accepted frame that makes nothing else raises ACCEPTED alone. -/
theorem raiseAccepted {t : Nine Nat} (h : ∀ c, t.get c ≤ max32) :
    nineMap2 (satAdd max32) t { (Nine.all 0 : Nine Nat) with accepted := 1 } = { t with accepted := up1 t.accepted } := by
  refine nine_ext fun c => ?_
  rw [nineMap2_get]
  cases c with
  | accepted => rfl
  | _ => exact satAdd_zero (h _)

theorem addIntervals_accepted {c : PerGrade Nat} (h : ∀ g, c.get g ≤ max16) :
    addIntervals c { (Nine.all 0 : Nine Nat) with accepted := 1 } = c := by
  have loss : satAdd max16 c.loss 0 = c.loss := satAdd_zero (h .loss)
  have timing : satAdd max16 c.timing 0 = c.timing := satAdd_zero (h .timing)
  have order : satAdd max16 c.order 0 = c.order := satAdd_zero (h .order)
  have path : satAdd max16 c.path 0 = c.path := satAdd_zero (h .path)
  simp only [addIntervals, Nine.all, Nat.add_zero, loss, timing, order, path]

section

variable {sl : Slot} (f : Frame) (epoch : Byte) (cycle : Word)

theorem classify_defined (state : sl.state = .defined) : classify sl f epoch = acquire sl.record f epoch := if_pos state

/-- The record of an acquired stream: window, reference and the tracker of the frame's path start from it, and the accounts count
it (R59, R76, R77). -/
theorem slotAfterFrame_defined (state : sl.state = .defined) (ok : AccountsOk sl.record) :
    slotAfterFrame sl f epoch cycle =
      { sl with state := .tracking, record := { setTrackerFor (startWindow sl.record f) f.path
          { mark := some f.seq, stamp := if sl.record.definition.dual then epoch else 0 } with
        lastCycle := cycle, tallies := { sl.record.tallies with accepted := up1 sl.record.tallies.accepted },
        history := { seq := f.seq, path := f.path, tick := f.tick, cats := 1 } :: sl.record.history.take 3 } } := by
  obtain ⟨tallies, -, -, intervals, -, -⟩ := ok
  have cats : classificationSet { (Nine.all 0 : Nine Nat) with accepted := 1 } = 1 := by decide
  simp only [slotAfterFrame, classify_defined f epoch state, acquire, startTracker, setTrackerFor_fields, accountFrame, addHistory,
    cats]
  simp only [startWindow, raiseAccepted tallies, addIntervals_accepted intervals]
  rfl

theorem frameDrafts_defined (state : sl.state = .defined) :
    frameDrafts sl f epoch cycle = [draftOf .streamAcquired (f.seq.toNat + 65536 * pathNumber f.path)] := by
  simp [frameDrafts, classify_defined f epoch state, acquire, resumeDrafts, state]

end

/-! ### A frame of a TRACKING or STALE stream (R57, R58, R76 to R79) -/

/-- Path tracking leaves the window, so the frame falls in the case that it had (R61, R62). -/
theorem windowCase_trackPath (r : Record) (path : PathCode) (s t : Half) (epoch : Byte) :
    windowCase (trackPath r path s epoch) t = windowCase r t := by
  rw [trackPath, setTrackerFor_fields]
  rfl

/-- A tracked frame that breaks the sequence makes SEQUENCE_BREAK, with the high mark that it found (R72). -/
theorem classifyTracked_drafts (r : Record) (f : Frame) (epoch : Byte) :
    (classifyTracked r f epoch).drafts =
      if 32 ≤ (f.seq - r.base).toNat ∧ ((r.definition.jump : Int) < (f.seq - r.high).toInt
          ∨ ((f.seq - r.high).toInt ≤ 0 ∧ r.definition.jump < (r.base - f.seq).toNat)) then
        [draftOf .sequenceBreak (r.high.toNat + 65536 * f.seq.toNat)] else [] := by
  simp only [classifyTracked, judgeWindow_broke, windowCase_trackPath, windowCase_sequenceBreak]

section

variable {sl : Slot} (f : Frame) (epoch : Byte) (cycle : Word)

theorem classify_tracked (state : sl.state ≠ .defined) : classify sl f epoch = classifyTracked sl.record f epoch := if_neg state

theorem slotAfterFrame_tracked (state : sl.state ≠ .defined) :
    slotAfterFrame sl f epoch cycle =
      { sl with state := if (classifyTracked sl.record f epoch).incs.accepted ≠ 0 then .tracking else sl.state,
                record := accountFrame (classifyTracked sl.record f epoch).record f (classifyTracked sl.record f epoch).incs cycle } := by
  simp only [slotAfterFrame, classify_tracked f epoch state, stateAfterFrame, Nat.pos_iff_ne_zero]

theorem frameDrafts_tracked (state : sl.state ≠ .defined) :
    frameDrafts sl f epoch cycle =
      (classifyTracked sl.record f epoch).drafts
        ++ if sl.state = .stale ∧ (classifyTracked sl.record f epoch).incs.accepted ≠ 0 then
            [draftOf .streamResumed (cycle - sl.record.lastCycle).toNat] else [] := by
  simp only [frameDrafts, classify_tracked f epoch state, resumeDrafts, Nat.pos_iff_ne_zero]

end

end Sys2Proof.Machine
end

section
/-! SUPPORT. The statements of chapter 04, the sequence window and frame classification. -/

namespace Sys2Proof.Safety

open Sys2Proof.Machine

/-! ### The drops of a slide and the lateness of a frame (R69, R74, R75) -/

/-- Settles O32: the drops counted below the new base, their bound under the window law, and the lateness check. -/
theorem slideDropsAndLatenessAreComputed : Obligations.SlideDropsAndLatenessAreComputed :=
  ⟨slideDrops_eq, fun _ _ ok hj outside after reach => slideDrops_le ok hj outside after reach, isLate_iff⟩

/-! ### The window's judgement (R65 to R72) -/

/-- Settles O30: the six cases of the window, each with its record and its increments. -/
theorem windowJudgesTheFrame : Obligations.WindowJudgesTheFrame := by
  intro r f epoch ooo S zero late refSeq refTick offset d j
  refine ⟨fun within accepted => ?repeated, fun within new after => ?newAfter, fun within new before => ?newBefore,
    fun outside after reach => ?slide, fun outside before reach => ?straggler, fun outside far => ?sequenceBreak⟩
  case repeated => exact judgeWindow_repeated (windowCase_iff.mpr ⟨within, accepted⟩)
  case newAfter =>
    refine (judgeWindow_newAfter (windowCase_iff.mpr ⟨within, new, after⟩)).trans ?_
    rw [anchor_eq]
    rfl
  case newBefore =>
    refine (judgeWindow_newBefore (windowCase_iff.mpr ⟨within, new, before⟩)).trans ?_
    have rescued : one (r.definition.dual && !ooo) = if r.definition.dual = true ∧ ooo = false then 1 else 0 := by
      simp [one]
    rw [anchor_eq, rescued]
    rfl
  case slide =>
    refine (judgeWindow_slide (windowCase_iff.mpr ⟨outside, after, reach⟩)).trans ?_
    rw [anchor_eq]
    rfl
  case straggler => exact judgeWindow_straggler (windowCase_iff.mpr ⟨outside, before, reach⟩)
  case sequenceBreak =>
    intro tracker absent onB
    refine (judgeWindow_sequenceBreak (windowCase_iff.mpr ⟨outside, far⟩)).trans ?_
    rw [breakRecord, startTracker, setTrackerFor_fields]
    rfl

/-! ### Path tracking (R60 to R63) -/

/-- Settles O31: path tracking's change of the record, its answer on order, and the misses, each from the frame's own tracker. -/
theorem pathTrackingCountsMissesAndOrder : Obligations.PathTrackingCountsMissesAndOrder := by
  intro r f epoch onB mine next tracked ooo misses judged
  have own : trackerFor r f.path = mine := trackerFor_eq r f.path
  have tracking : trackPath r f.path f.seq epoch = tracked := by
    rw [trackPath, setTrackerFor_eq, own]
    rfl
  have order : outOfOrder r f.path f.seq = ooo := by
    rw [outOfOrder, own]
    rfl
  have skipped : missesOf r f.path f.seq epoch = misses := by
    simp only [missesOf, own, Bool.and_eq_true, beq_iff_eq, decide_eq_true_eq, and_assoc]
    rfl
  have judgement : judgeWindow (trackPath r f.path f.seq epoch) f epoch (outOfOrder r f.path f.seq) = judged := by
    rw [tracking, order]
  refine ⟨by rw [classifyTracked, judgement], ?_⟩
  rw [classifyTracked, judgement, skipped]
  cases f.path <;> simp [addMisses]

/-! ### READ-WINDOW and READ-SHEET (R81, R88 to R90) -/

section

variable {s : State} {p : Port} {n : Nat} (hn : n ≤ 511) (readable : Readable s n)

include hn readable

theorem exec_readWindow (hi : InHand s p 0x17 (leBytes 2 n)) :
    exec (.readWindow p false) s = .next (answered s p (.okData (windowBytes (slotAt s.table n)))) := by
  refine congrArg Host.Outcome.next (serve_answered hi .readWindow rfl ?_)
  rw [readWindow, oneSlotArg_leBytes n hn]
  exact onRecord_taken readable _

theorem exec_readSheet {mode : Nat} (hm : mode ≤ 1) (hi : InHand s p 0x19 (leBytes 2 n ++ leBytes 1 mode)) :
    exec (.readSheet p false) s = .next (answered s p (.okData
      (sheetBytes n (slotAt s.table n) p (mode == 1) s.intake.counters.gapCount s.monitor.cycleCount))) := by
  refine congrArg Host.Outcome.next (serve_answered hi .readSheet rfl ?_)
  obtain ⟨slotField, modeField⟩ := fieldAt_two 2 1 n mode (by omega) (by omega)
  simp only [readSheet, slotField, modeField]
  rw [if_pos ⟨by simp, hn, hm⟩]
  exact onRecord_taken readable _

end

theorem windowBytes_defined {sl : Slot} (h : sl.state = .defined) : windowBytes sl = leBytes 1 1 ++ List.replicate 63 0 := by
  simp only [windowBytes, shownWindow, h, if_true]
  decide

theorem trackerBytes_eq (t : Tracker) :
    trackerBytes t = match t.mark with
      | some high => [1] ++ leBytes 2 high.toNat ++ [t.stamp]
      | none => [0, 0, 0, t.stamp] := by
  unfold trackerBytes
  cases t.mark <;> rfl

/-- READ-WINDOW outside DEFINED: tracker B of a SINGLE stream reads absent (R81). -/
theorem windowBytes_others {sl : Slot} (h : sl.state ≠ .defined) :
    windowBytes sl =
      leBytes 1 (slotStateNumber sl.state) ++ leBytes 2 sl.record.base.toNat ++ leBytes 2 sl.record.high.toNat
        ++ leBytes 4 sl.record.acceptedSet.toNat ++ leBytes 4 sl.record.lastCycle.toNat ++ leBytes 2 sl.record.refSeq.toNat
        ++ leBytes 4 sl.record.refTick.toNat ++ trackerBytes sl.record.trackerA
        ++ (if sl.record.definition.dual then trackerBytes sl.record.trackerB else [0, 0, 0, 0])
        ++ leBytes 1 sl.record.history.length ++ sl.record.history.flatMap historyLayout
        ++ List.replicate (36 - 9 * sl.record.history.length) 0 := by
  have absent : trackerBytes Tracker.absent = [0, 0, 0, 0] := by decide
  by_cases dual : sl.record.definition.dual = true
  · simp only [windowBytes, shownWindow, if_neg h, if_pos dual, historyEntryBytes_eq]
  · simp only [windowBytes, shownWindow, if_neg h, if_neg dual, historyEntryBytes_eq, absent]

/-- The nine values of a sheet, by whether they count since the port's marks (R89). -/
theorem sheetValues_get (r : Record) (p : Port) (sinceMark : Bool) (c : Tally) :
    (sheetValues r p sinceMark).get c = if sinceMark then r.tallies.get c - (r.marks.get p).get c else r.tallies.get c := by
  unfold sheetValues
  split <;> simp

/-- Settles O21: both answers from the slot as it is read, and their layouts. -/
theorem windowAndSheetAreRead : Obligations.WindowAndSheetAreRead := by
  intro s p n hn readable sl r tracker
  refine ⟨fun hi defined => ?defined, fun hi others => ?window, fun mode hm hi => ?sheet⟩
  case defined => rw [exec_readWindow hn readable hi, windowBytes_defined defined]
  case window =>
    have layout (t : Tracker) : trackerBytes t = tracker t := trackerBytes_eq t
    rw [exec_readWindow hn readable hi, windowBytes_others others]
    simp only [layout]
    rfl
  case sheet =>
    intro value body
    have values (c : Tally) : leBytes 4 ((sheetValues r p (mode == 1)).get c) = value c := by
      simp only [sheetValues_get, beq_iff_eq]
      rfl
    have flag : [flagByte (mode == 1)] = leBytes 1 mode := by
      obtain rfl | rfl : mode = 0 ∨ mode = 1 := by omega
      · rfl
      · rfl
    have layout : sheetBody n sl p (mode == 1) s.intake.counters.gapCount s.monitor.cycleCount = body := by
      have nine : (nineList (sheetValues r p (mode == 1))).flatMap (leBytes 4) = value .accepted ++ value .dropped ++ value .late
          ++ value .reordered ++ value .rescued ++ value .duplicate ++ value .straggler ++ value .missedA ++ value .missedB := by
        simp only [← values]
        simp [nineList, Nine.get]
      rw [sheetBody, nine, flag, saturationSet_eq]
      simp [body, gradeList, trippedByte, r]
    refine ⟨by simp [body, value], sumBytes_closed body, ?_⟩
    rw [exec_readSheet hn readable hm hi, sheetBytes, layout]

/-! ### A frame that no record takes (R46, R56) -/

/-- The state once the frame at the front has left the queue for the Classifier (R5, R55). -/
def afterTaking (s : State) (rest : List Descriptor) : State :=
  { s with intake := { withoutFront s.intake rest with frameCount := none } }

/-- The path states, and so the epoch of a frame's path, stay as a frame leaves the queue. -/
theorem epochOf_afterTaking (s : State) (rest : List Descriptor) (path : PathCode) :
    epochOf (afterTaking s rest).intake path = epochOf s.intake path := by
  cases path <;> rfl

/-- A frame whose tag a slot holds is taken for that slot. -/
theorem exec_frameTake_mapped {s : State} {f : Frame} {rest : List Descriptor} {n : Nat} (ready : FrameReady s f rest)
    (maps : MapsTo s f.tag n) (u : Upset) : exec (.frameTake u) s = .next (takeForSlot n f u (afterTaking s rest)) :=
  (exec_frameTake_ready ready u).trans
    (congrArg Host.Outcome.next (classifyFrame_mapped (s := afterTaking s rest) maps u))

/-- Settles O27: by the slot's state, its parity and the frame's path. -/
theorem unusableFrameIsDiscarded : Obligations.UnusableFrameIsDiscarded := by
  intro s u f rest n ready maps sl c faulted
  rw [exec_frameTake_mapped ready maps]
  refine ⟨fun state => ?faulted, fun fails => ?fails, fun readable hu dual path => ?noPath⟩
  case faulted => exact congrArg Host.Outcome.next (takeForSlot_faulted (s := afterTaking s rest) f u state)
  case fails => exact congrArg Host.Outcome.next (takeForSlot_fails (s := afterTaking s rest) f u fails)
  case noPath => exact congrArg Host.Outcome.next (takeForSlot_noPath (s := afterTaking s rest) f hu readable dual path)

/-! ### A frame that a record takes (R57 to R59, R76 to R80) -/

section

variable {s : State} {f : Frame} {rest : List Descriptor} {n : Nat} {after : Slot} {incs : Nine Nat} {drafts : List Draft}
  (ready : FrameReady s f rest) (maps : MapsTo s f.tag n) (readable : Readable s n)
  (usable : ¬((slotAt s.table n).record.definition.dual = true ∧ f.path = .none))

include ready maps readable usable

/-- A frame for a readable slot, on a path that its stream has, is classified into the record. -/
theorem exec_frameTake_usable (during : Bool) :
    exec (.frameTake { before := false, during := during }) s =
      .next (takeIntoRecord n (slotAt s.table n) f during (afterTaking s rest)) := by
  rw [exec_frameTake_mapped ready maps]
  exact congrArg Host.Outcome.next (takeForSlot_usable (s := afterTaking s rest) f rfl readable usable)

variable (hc : (classify (slotAt s.table n) f (epochOf s.intake f.path)).incs = incs)
  (ha : slotAfterFrame (slotAt s.table n) f (epochOf s.intake f.path) s.monitor.cycleCount = after)
  (hd : frameDrafts (slotAt s.table n) f (epochOf s.intake f.path) s.monitor.cycleCount = drafts)

include hc ha hd

theorem exec_frameTake_passes :
    exec (.frameTake { before := false, during := false }) s =
      .next (makeHandoff
        (hand (putSlot (afterTaking s rest) n after) .classifier
          (drafts.map (viewedCondition s.monitor.cycleCount n (slotAt s.table n).tag (some (viewOf after.record)))))
        (handoffOf n (slotAt s.table n) f incs s.monitor.cycleCount (some (viewOf after.record)))
        (drafts.map (viewedCondition s.monitor.cycleCount n (slotAt s.table n).tag (some (viewOf after.record))))) := by
  rw [exec_frameTake_usable ready maps readable usable]
  rw [← epochOf_afterTaking s rest] at hc ha hd
  exact congrArg Host.Outcome.next (takeIntoRecord_passes (s := afterTaking s rest) n hc ha hd readable.2)

theorem exec_frameTake_fails :
    exec (.frameTake { before := false, during := true }) s =
      .next { hand (putSlot (afterTaking s rest) n { after with state := .faulted, parityGood := false }) .classifier
          (drafts.map (viewedCondition s.monitor.cycleCount n (slotAt s.table n).tag none)
            ++ [recordFault s.monitor.cycleCount n (slotAt s.table n).tag 1]) with
        classifier := some (handoffOf n (slotAt s.table n) f incs s.monitor.cycleCount none) } := by
  rw [exec_frameTake_usable ready maps readable usable]
  rw [← epochOf_afterTaking s rest] at hc ha hd
  exact congrArg Host.Outcome.next (takeIntoRecord_fails (s := afterTaking s rest) n hc ha hd)

end

/-- Settles O28: the acquired record and STREAM_ACQUIRED, by what the read at the end of the access finds. -/
theorem frameOfADefinedStreamAcquiresIt : Obligations.FrameOfADefinedStreamAcquiresIt := by
  intro s f rest n ready maps state good usable ok sl r cycle tracker onB record detail handoff
  have readable : Readable s n := ⟨by rw [state]; rfl, good⟩
  have after : slotAfterFrame sl f (epochOf s.intake f.path) cycle = { sl with state := .tracking, record := record } := by
    rw [slotAfterFrame_defined f _ cycle state ok, setTrackerFor_fields]
    rfl
  have drafts : frameDrafts sl f (epochOf s.intake f.path) cycle = [draftOf .streamAcquired detail] :=
    frameDrafts_defined f _ cycle state
  have incs : (classify sl f (epochOf s.intake f.path)).incs = { (Nine.all 0 : Nine Nat) with accepted := 1 } := by
    rw [classify_defined f _ state]
    rfl
  refine ⟨?passes, ?fails⟩
  case passes =>
    rw [exec_frameTake_passes ready maps readable usable incs after drafts, makeHandoff_eq]
    rfl
  case fails =>
    rw [exec_frameTake_fails ready maps readable usable incs after drafts]
    rfl

/-- Settles O29: the accounted record and the frame's own records, by what the read at the end of the access finds. -/
theorem frameOfATrackedStreamIsAccounted : Obligations.FrameOfATrackedStreamIsAccounted := by
  intro s f rest n ready maps state good usable sl cycle c accepted add16 add32 r record d broken resumed records own stripped
    handoff
  have readable : Readable s n := ⟨by rcases state with h | h <;> rw [h] <;> rfl, good⟩
  have tracked : sl.state ≠ .defined := by rcases state with h | h <;> simp [sl, h]
  have incs : (classify sl f (epochOf s.intake f.path)).incs = c.incs := by rw [classify_tracked f _ tracked]
  have accounted : accountFrame r f c.incs cycle = record := by
    simp only [accountFrame, Nat.pos_iff_ne_zero]
    rfl
  have after : slotAfterFrame sl f (epochOf s.intake f.path) cycle
      = { sl with state := if accepted then .tracking else sl.state, record := record } := by
    rw [slotAfterFrame_tracked f _ cycle tracked, ← accounted]
  have shown (view : Option StreamView) :
      (frameDrafts sl f (epochOf s.intake f.path) cycle).map (viewedCondition cycle n sl.tag view)
        = records fun kind urgent detail =>
            viewedCondition cycle n sl.tag view { kind := kind, urgent := urgent, detail := detail } := by
    rw [frameDrafts_tracked f _ cycle tracked, classifyTracked_drafts, List.map_append]
    simp only [records]
    congr 1
    · split <;> rfl
    · split <;> rfl
  refine ⟨?passes, ?fails⟩
  case passes =>
    rw [exec_frameTake_passes ready maps readable usable incs after rfl, shown, makeHandoff_eq]
    obtain ⟨-, idle, -, -⟩ := ready
    have nothing : (afterTaking s rest).classifier = none := idle
    simp only [hand_classifier, putSlot_classifier, nothing]
    rfl
  case fails =>
    rw [exec_frameTake_fails ready maps readable usable incs after rfl, shown]
    rfl

end Sys2Proof.Safety
end

section
/-! SUPPORT. Chapter 05's meanings case by case: the range that a command names, what a visit of a MARK walk and of a sweep makes
of its slot, and how the walk goes on or ends. -/

namespace Sys2Proof.Machine

open Sys2Proof.Safety

/-! ### A range of slots (R85, R92, R98) -/

theorem slotRangeArgs_layout {first last : Nat} (ordered : first ≤ last) (inTable : last ≤ 511) :
    slotRangeArgs (leBytes 2 first ++ leBytes 2 last) = some (first, last) := by
  obtain ⟨firstField, lastField⟩ := fieldAt_two 2 2 first last (by omega) (by omega)
  simp [slotRangeArgs, firstField, lastField, ordered, inTable]

theorem slotRangeArgs_eq_none {args : List Byte}
    (wrong : args.length ≠ 4 ∨ halfAt args 2 < halfAt args 0 ∨ 511 < halfAt args 2) : slotRangeArgs args = none := by
  simp only [slotRangeArgs, fieldAt_half]
  exact if_neg (by omega)

/-! ### A walk of MARK (R85, R86) -/

section

variable {s : State} {p : Port} {w : MarkWalk}

theorem exec_markVisit (hr : Running s) (hw : s.table.markWalks.get p = some w) (upset : Bool) :
    exec (.markVisit p upset) s = .next (visitMark p upset w s) := by
  refine congrArg Host.Outcome.next ((whenRunning_running _ s hr).trans ?_)
  simp only [stepMark, hw]

theorem markAnswer_eq (w : MarkWalk) : markAnswer w =
    if w.marked ≠ 0 then { code := .ok, data := leBytes 2 w.marked ++ leBytes 2 w.faulted }
    else if w.faulted ≠ 0 then { code := .faulted, data := leBytes 2 w.faulted }
    else { code := .noSuchStream, data := [] } := by
  simp only [markAnswer, Nat.pos_iff_ne_zero]
  rfl

theorem visitMark_free (h : (slotAt s.table w.position).state = .free) : visitMark p false w s = advanceMark p w s := by
  simp [visitMark, h]

theorem visitMark_faulted (h : (slotAt s.table w.position).state = .faulted) :
    visitMark p false w s = advanceMark p { w with faulted := w.faulted + 1 } s := by
  simp [visitMark, h]

theorem visitMark_readable (h : Readable s w.position) : visitMark p false w s =
    advanceMark p { w with marked := w.marked + 1 } (putSlot s w.position
      { slotAt s.table w.position with record := markRecord p (slotAt s.table w.position).record }) := by
  obtain ⟨live, good⟩ := h
  obtain ⟨held, unfaulted⟩ := stateLive_iff.mp live
  simp [visitMark, held, unfaulted, good]

theorem visitMark_fails {upset : Bool} (h : ParityFails s w.position upset) : visitMark p upset w s =
    advanceMark p { w with faulted := w.faulted + 1 } (afterFault s s.monitor.cycleCount w.position 6) := by
  obtain ⟨live, fails⟩ := h
  obtain ⟨held, unfaulted⟩ := stateLive_iff.mp live
  have bad : (disturb upset (slotAt s.table w.position)).parityGood = false := fails
  rw [← failAccess_eq s s.monitor.cycleCount w.position 6 upset fails]
  simp [visitMark, held, unfaulted, bad, cycleNow]

end

/-! ### The start of a sweep (R92, R98) -/

section

variable {s : State} {p : Port} {first last : Nat} (kind : SweepKind) (ordered : first ≤ last) (inTable : last ≤ 511)

include ordered inTable

theorem startSweep_idle (idle : s.sweep = none) : startSweep kind p (leBytes 2 first ++ leBytes 2 last) (taken s p) =
    (taken { s with
      sweep := some { kind := kind, first := first, last := last, position := first, starter := p, faults := 0 } } p,
      some (.bare .started)) := by
  simp only [startSweep, slotRangeArgs_layout ordered inTable, taken_sweep, idle, Option.isSome_none, Bool.false_eq_true,
    if_false]
  rfl

theorem startSweep_busy (inFlight : s.sweep ≠ none) :
    startSweep kind p (leBytes 2 first ++ leBytes 2 last) (taken s p) = (taken s p, some (.bare .busy)) := by
  simp only [startSweep, slotRangeArgs_layout ordered inTable, taken_sweep, Option.isSome_iff_ne_none.mpr inFlight, if_true]
  rfl

end

/-! ### The records and notices of a sweep's end (R97, R100) -/

theorem sweepDoneWord_eq (w : Sweep) (lastDone : Nat) (aborted : Bool) : sweepDoneWord w lastDone aborted =
    lastDone + (if w.kind = .scrub then 1024 else 0) + (if aborted then 2048 else 0) + 4096 * w.faults := by
  rw [sweepDoneWord]
  cases w.kind <;> rfl

/-- The append of an aborted sweep: only a clear that has visited a slot has one (R100). -/
theorem abortRecords_appends (w : Sweep) (cycle : Word) (p : Port) :
    accessAppends .sweepEngine (some p) (abortRecords w cycle) =
      if w.kind = .clear ∧ w.position ≠ w.first then
        [commandAppend .sweepEngine p
          (bareRecord cycle .talliesCleared false (talliesClearedDetail w (abortedLast w) true))]
      else [] := by
  rw [abortRecords]
  split <;> rfl

/-- A sweep at its last slot ends; a clear hands over TALLIES_CLEARED first (R97, R99). -/
theorem finishSweep_eq (w : Sweep) (s : State) : finishSweep w s =
    { s with
      sweep := none,
      appends := s.appends ++ (if w.kind = .clear then
        [appendOf .sweepEngine
          (bareRecord s.monitor.cycleCount .talliesCleared false (talliesClearedDetail w w.last false))] else []),
      posted := s.posted ++ [sentNotice .sweepEngine w.starter .sweepDone (sweepDoneWord w w.last false)] } := by
  cases kind : w.kind with
  | clear =>
    simp only [finishSweep, kind]
    rfl
  | scrub => simp [finishSweep, kind, post, sentNotice]

/-! ### ABORT-SWEEP (R100) -/

section

variable {s : State} {p : Port} {w : Sweep}

theorem abortSweep_empty (idle : s.sweep = none) : abortSweep p (taken s p) = (taken s p, some (.bare .empty)) := by
  simp only [abortSweep, taken_sweep, idle]
  rfl

theorem abortSweep_notOwner (inFlight : s.sweep = some w) (other : w.starter ≠ p) (free : ¬Holds s p) :
    abortSweep p (taken s p) = (taken s p, some (.bare .notOwner)) := by
  simp only [abortSweep, taken_sweep, inFlight]
  exact if_neg (by simp [other, holdsLock_taken_false s p free])

theorem abortSweep_ends (inFlight : s.sweep = some w) (owner : w.starter = p ∨ Holds s p) :
    abortSweep p (taken s p) =
      (taken { s with
        sweep := none,
        appends := s.appends ++
          (if w.kind = .clear ∧ w.position ≠ w.first then
            [commandAppend .sweepEngine p (bareRecord s.monitor.cycleCount .talliesCleared false
              (talliesClearedDetail w (abortedLast w) true))] else []),
        posted := s.posted ++ [sentNotice .sweepEngine w.starter .sweepDone
          (abortedLast w + (if w.kind = .scrub then 1024 else 0) + 2048 + 4096 * w.faults)] } p,
      some (.bare .ok)) := by
  simp only [abortSweep, taken_sweep, inFlight, if_pos (owner.imp_right holdsLock_taken), handHolding, abortRecords_appends,
    sweepDoneWord_eq]
  rfl

end

/-! ### The steps of a sweep (R92, R94, R98, R99) -/

section

variable {s : State} {w : Sweep} (hs : s.sweep = some w)

include hs

theorem stepClear_visits (kind : w.kind = .clear) (given : StartAnswered s w) (upset : Bool) :
    stepClear upset s = visitClear upset w s := by
  simp only [stepClear, hs, (mayVisit_iff .clear w s).mpr ⟨kind, given⟩, if_true]

theorem stepScrub_visits (kind : w.kind = .scrub) (given : StartAnswered s w) (upset : Bool) :
    stepScrub upset s = visitScrub upset w s := by
  simp only [stepScrub, hs, (mayVisit_iff .scrub w s).mpr ⟨kind, given⟩, if_true]

theorem stepClear_waits (h : ¬(w.kind = .clear ∧ StartAnswered s w)) (upset : Bool) : stepClear upset s = s := by
  simp only [stepClear, hs, mt (mayVisit_iff .clear w s).mp h, Bool.false_eq_true, if_false]

theorem stepScrub_waits (h : ¬(w.kind = .scrub ∧ StartAnswered s w)) (upset : Bool) : stepScrub upset s = s := by
  simp only [stepScrub, hs, mt (mayVisit_iff .scrub w s).mp h, Bool.false_eq_true, if_false]

end

section

variable {s : State} {w : Sweep} {upset : Bool}

theorem visitClear_passes (h : stateLive (slotAt s.table w.position).state = false) :
    visitClear false w s = advanceSweep w s := by
  simp [visitClear, h]

theorem visitClear_readable (h : Readable s w.position) : visitClear false w s =
    advanceSweep w (putSlot s w.position { slotAt s.table w.position with
      record := clearedRecord s.intake.counters.gapCount (slotAt s.table w.position).record }) := by
  obtain ⟨live, good⟩ := h
  simp [visitClear, live, good, gapCountNow]

theorem visitClear_fails (h : ParityFails s w.position upset) : visitClear upset w s =
    advanceSweep { w with faults := w.faults + 1 } (afterFault s s.monitor.cycleCount w.position 4) := by
  obtain ⟨live, fails⟩ := h
  have bad : (disturb upset (slotAt s.table w.position)).parityGood = false := fails
  rw [← failAccess_eq s s.monitor.cycleCount w.position 4 upset fails]
  simp [visitClear, live, bad, cycleNow]

theorem visitScrub_faulted (h : (slotAt s.table w.position).state = .faulted) :
    visitScrub false w s = advanceSweep { w with faults := w.faults + 1 } s := by
  simp [visitScrub, h]

theorem visitScrub_good (unfaulted : (slotAt s.table w.position).state ≠ .faulted)
    (good : (slotAt s.table w.position).parityGood = true) : visitScrub false w s = advanceSweep w s := by
  simp [visitScrub, unfaulted, good]

theorem visitScrub_free_fails (free : (slotAt s.table w.position).state = .free)
    (fails : ((slotAt s.table w.position).parityGood && !upset) = false) :
    visitScrub upset w s = advanceSweep { w with faults := w.faults + 1 } (putSlot s w.position .free) := by
  have bad : (disturb upset (slotAt s.table w.position)).parityGood = false := fails
  simp [visitScrub, free, bad]

theorem visitScrub_fails (h : ParityFails s w.position upset) : visitScrub upset w s =
    advanceSweep { w with faults := w.faults + 1 } (afterFault s s.monitor.cycleCount w.position 5) := by
  obtain ⟨live, fails⟩ := h
  obtain ⟨held, unfaulted⟩ := stateLive_iff.mp live
  have bad : (disturb upset (slotAt s.table w.position)).parityGood = false := fails
  rw [← failAccess_eq s s.monitor.cycleCount w.position 5 upset fails]
  simp [visitScrub, held, unfaulted, bad, cycleNow]

end

end Sys2Proof.Machine
end

section
/-! SUPPORT. The statements of chapter 05, tallies, marks and sweeps. -/

namespace Sys2Proof.Safety

open Sys2Proof.Machine

/-! ### MARK (R84 to R86) -/

/-- Settles O34: MARK by its arguments, a visit by the slot's state and its parity. -/
theorem markWalksItsRange : Obligations.MarkWalksItsRange := by
  refine ⟨fun s p first last ordered inTable hi => ?started, fun s p args hi wrong => ?badValue,
    fun s p w upset hr hw _ => ?visits⟩
  case started =>
    refine congrArg Host.Outcome.next ((serve_inHand hi .mark rfl (startMark p)).trans ?_)
    rw [startMark, slotRangeArgs_layout ordered inTable]
    rfl
  case badValue =>
    refine congrArg Host.Outcome.next (serve_answered hi .mark rfl ?_)
    rw [startMark, slotRangeArgs_eq_none wrong]
    rfl
  case visits =>
    intro n sl walking onward
    have goes_on (t : State) (marked faulted : Nat) :
        advanceMark p { w with marked := marked, faulted := faulted } t = onward t marked faulted := by
      rw [advanceMark, markAnswer_eq]
      rfl
    simp only [exec_markVisit hr hw, ← goes_on]
    refine ⟨fun free => ?free, fun faulted => ?faulted, fun readable => ?marked, fun fails => ?fails⟩
    case free => rw [visitMark_free free]
    case faulted => rw [visitMark_faulted faulted]
    case marked =>
      rw [visitMark_readable readable]
      rfl
    case fails => rw [visitMark_fails fails]

/-! ### CLEAR-TALLIES, START-SCRUB, READ-SWEEP and ABORT-SWEEP (R92, R98, R100, R101) -/

/-- Settles O35: each command by what is in flight; ABORT-SWEEP also by the port that gives it. -/
theorem sweepsAreStartedReadAndAborted : Obligations.SweepsAreStartedReadAndAborted := by
  intro s p
  refine ⟨fun first last ordered inTable => ?started, fun hi => ?read, fun hi idle => ?empty, fun w hi inFlight => ?abort⟩
  case started =>
    have clear {t : State} {ans : Answer} (hh : Holds s p) (hi : InHand s p 0x1a (leBytes 2 first ++ leBytes 2 last))
        (hf : startSweep .clear p (leBytes 2 first ++ leBytes 2 last) (taken s p) = (taken t p, some ans)) :
        exec (.clearTallies p) s = .next (answered t p ans) :=
      congrArg Host.Outcome.next (serve_underLock_answered hh hi .clearTallies rfl hf)
    have scrub {t : State} {ans : Answer} (hi : InHand s p 0x1b (leBytes 2 first ++ leBytes 2 last))
        (hf : startSweep .scrub p (leBytes 2 first ++ leBytes 2 last) (taken s p) = (taken t p, some ans)) :
        exec (.startScrub p) s = .next (answered t p ans) :=
      congrArg Host.Outcome.next (serve_answered hi .startScrub rfl hf)
    exact
      ⟨fun hh hi => ⟨fun idle => clear hh hi (startSweep_idle .clear ordered inTable idle),
        fun inFlight => clear hh hi (startSweep_busy .clear ordered inTable inFlight)⟩,
      fun hi => ⟨fun idle => scrub hi (startSweep_idle .scrub ordered inTable idle),
        fun inFlight => scrub hi (startSweep_busy .scrub ordered inTable inFlight)⟩⟩
  case read =>
    have shown : exec (.readSweep p) s = .next (answered s p (.okData (sweepBytes s.sweep))) :=
      congrArg Host.Outcome.next (serve_answered hi .readSweep rfl rfl)
    rw [shown]
    cases s.sweep with
    | none => rfl
    | some w => cases kind : w.kind <;> simp only [sweepBytes, kind] <;> rfl
  case empty =>
    exact congrArg Host.Outcome.next (serve_answered hi .abortSweep rfl (abortSweep_empty idle))
  case abort =>
    intro lastDone word detail
    have asked {t : State} {ans : Answer} (hf : abortSweep p (taken s p) = (taken t p, some ans)) :
        exec (.abortSweep p) s = .next (answered t p ans) :=
      congrArg Host.Outcome.next (serve_answered hi .abortSweep rfl hf)
    refine ⟨fun other free => asked ?notOwner, fun owner => asked ?ended⟩
    case notOwner => exact abortSweep_notOwner inFlight other free
    case ended => exact abortSweep_ends inFlight owner

/-! ### The steps of a sweep and its end (R92, R94, R97 to R99) -/

/-- Settles O36: a step by whether it may visit, the sweep's kind, and the slot's state and parity. -/
theorem sweepStepsClearAndScrub : Obligations.SweepStepsClearAndScrub := by
  refine ⟨fun s w upset hs => ⟨fun waits => ?clearWaits, fun waits => ?scrubWaits⟩,
    fun s w upset hr hs given _ => ?steps⟩
  case clearWaits =>
    refine congrArg Host.Outcome.next (whenRunning_eq_self (stepClear_waits hs ?_ upset))
    rintro ⟨kind, given⟩
    simp [kind, given] at waits
  case scrubWaits =>
    refine congrArg Host.Outcome.next (whenRunning_eq_self (stepScrub_waits hs ?_ upset))
    rintro ⟨kind, given⟩
    simp [kind, given] at waits
  case steps =>
    intro n sl kindBit onward clean cleared
    have goes_on (t : State) (found : Nat) (cycle : t.monitor.cycleCount = s.monitor.cycleCount) :
        advanceSweep { w with faults := w.faults + found } t = onward t found := by
      rw [advanceSweep, finishSweep_eq, sweepDoneWord_eq, cycle]
      rfl
    refine ⟨fun kind => ?clear, fun kind => ?scrub⟩
    case clear =>
      have step {upset : Bool} {t : State} (found : Nat) (cycle : t.monitor.cycleCount = s.monitor.cycleCount)
          (visit : visitClear upset w s = advanceSweep { w with faults := w.faults + found } t) :
          exec (.clearStep upset) s = .next (onward t found) := by
        rw [← goes_on t found cycle, ← visit, ← stepClear_visits hs kind given upset]
        exact congrArg Host.Outcome.next (whenRunning_running _ s hr)
      refine ⟨fun state => step 0 rfl (visitClear_passes ?_), fun readable => step 0 rfl (visitClear_readable readable),
        fun fails => step 1 rfl (visitClear_fails fails)⟩
      obtain h | h := state <;> rw [h] <;> rfl
    case scrub =>
      have step {upset : Bool} {t : State} (found : Nat) (cycle : t.monitor.cycleCount = s.monitor.cycleCount)
          (visit : visitScrub upset w s = advanceSweep { w with faults := w.faults + found } t) :
          exec (.scrubStep upset) s = .next (onward t found) := by
        rw [← goes_on t found cycle, ← visit, ← stepScrub_visits hs kind given upset]
        exact congrArg Host.Outcome.next (whenRunning_running _ s hr)
      exact ⟨fun faulted => step 1 rfl (visitScrub_faulted faulted),
        fun unfaulted good => step 0 rfl (visitScrub_good unfaulted good),
        fun free fails => step 1 rfl (visitScrub_free_fails free fails), fun fails => step 1 rfl (visitScrub_fails fails)⟩

end Sys2Proof.Safety
end

section
/-! SUPPORT. Chapter 06's meanings case by case: a cycle event at the Rating Unit, what a rating step makes of a grade, of a record and
of its slot, and where the sweep goes next. -/

namespace Sys2Proof.Machine

open Sys2Proof.Safety

/-! ### A cycle event at the Rating Unit (R105) -/

section

variable {s : State} {k : Nat}

theorem takeRatingEvent_counts (waiting : s.rating.events = k + 1) (below : s.rating.since + 1 < s.rating.interval) :
    takeRatingEvent s = { s with rating := { s.rating with events := k, since := s.rating.since + 1 } } := by
  simp only [takeRatingEvent, waiting, countRatingCycle, if_pos below]

theorem takeRatingEvent_due (waiting : s.rating.events = k + 1) (reached : s.rating.interval ≤ s.rating.since + 1) :
    takeRatingEvent s = { s with rating := ratingFallsDue { s.rating with events := k } } := by
  simp only [takeRatingEvent, waiting, countRatingCycle, if_neg (Nat.not_lt.mpr reached)]

end

/-- A rating that falls due starts a sweep, or is skipped when one is running (R105). -/
theorem ratingFallsDue_eq (r : Rating) : ratingFallsDue r =
    { r with
      since := 0,
      sweep := match r.sweep with
        | none => some 0
        | some n => some n,
      skips := match r.sweep with
        | none => r.skips
        | some _ => up1 r.skips } := by
  cases running : r.sweep with
  | none => simp only [ratingFallsDue, running]
  | some n =>
    simp only [ratingFallsDue, running]
    rfl

section

variable {s : State} (hr : Running s)

include hr

theorem exec_ratingCycleEvent : exec .ratingCycleEvent s = .next (takeRatingEvent s) :=
  congrArg Host.Outcome.next (whenRunning_running _ s hr)

theorem exec_ratingDue :
    exec .ratingDue s = .next (if s.rating.since + 1 < s.rating.interval then s else takeRatingEvent s) :=
  congrArg Host.Outcome.next (whenRunning_running _ s hr)

end

/-! ### The rating of one grade and of a record (R107 to R109) -/

/-- The trip condition as one formula: a threshold of 255 always meets it, one of 0 never (R108). -/
theorem tripMet_eq (threshold current : Nat) :
    tripMet threshold current = decide (threshold = 255 ∨ (1 ≤ threshold ∧ current ≤ threshold)) := by
  unfold tripMet
  split
  · next off => simp [off]
  · next on =>
    split
    · next always => simp [always]
    · next level => simp [level, Nat.one_le_iff_ne_zero.mpr on]

/-- What a flag that changes hands over, as whatever is made of its kind, urgency and detail (R109). -/
theorem gradeDrafts_map {α : Type} (make : Kind → Bool → Nat → α) (code : Grade) (g : GradeState) (c : GradeSetting) (n : Nat) :
    (gradeDrafts code g c n).map (fun d => make d.kind d.urgent d.detail) =
      if g.tripped = false ∧ (rateGrade g c n).tripped = true then
        [make .gradeTripped c.urgent (gradeNumber code + 256 * gradeOf n c.step + 65536 * c.threshold)]
      else if g.tripped = true ∧ (rateGrade g c n).tripped = false then
        [make .gradeCleared false (gradeNumber code + 256 * gradeOf n c.step + 65536 * c.threshold)]
      else [] := by
  simp only [gradeDrafts, Bool.and_eq_true, Bool.not_eq_true', apply_ite (List.map _)]
  rfl

theorem ratingDrafts_map {α : Type} (make : Draft → α) (r : Record) :
    (ratingDrafts r).map make =
      (gradeDrafts .loss r.grades.loss r.settings.loss r.intervals.loss).map make
        ++ (gradeDrafts .timing r.grades.timing r.settings.timing r.intervals.timing).map make
        ++ (gradeDrafts .order r.grades.order r.settings.order r.intervals.order).map make
        ++ (gradeDrafts .path r.grades.path r.settings.path r.intervals.path).map make := by
  simp [ratingDrafts, allGrades, PerGrade.get]

/-! ### The rating of a slot (R46, R47, R107, R110) -/

section

variable {s : State} {n : Nat} {sl : Slot}

/-- A rated record whose read at the end passes; with no flag changed there is no such read, and nothing is handed over. -/
theorem rateSlot_passes (good : sl.parityGood = true) :
    rateSlot n false sl s = hand (putSlot s n { sl with record := ratedRecord sl.record }) .ratingUnit
      ((ratingDrafts sl.record).map
        (viewedCondition s.monitor.cycleCount n sl.tag (some (viewOf (ratedRecord sl.record))))) := by
  have passes := endAccess_good (cycleNow s) n { sl with record := ratedRecord sl.record } 3 (ratingDrafts sl.record) good
  cases drafts : ratingDrafts sl.record with
  | nil => simp [rateSlot, drafts]
  | cons d rest =>
    rw [drafts] at passes
    simp only [rateSlot, drafts, passes]
    rfl

/-- A rated record whose read at the end fails: the rating stands, its conditions are stripped, and RECORD_FAULT follows them. -/
theorem rateSlot_fails (changed : ratingDrafts sl.record ≠ []) :
    rateSlot n true sl s =
      hand (putSlot s n { sl with state := .faulted, parityGood := false, record := ratedRecord sl.record }) .ratingUnit
        ((ratingDrafts sl.record).map (viewedCondition s.monitor.cycleCount n sl.tag none)
          ++ [recordFault s.monitor.cycleCount n sl.tag 3]) := by
  have failed : faultSlot (disturb true { sl with record := ratedRecord sl.record })
      = { sl with state := .faulted, parityGood := false, record := ratedRecord sl.record } := by
    simp [faultSlot, disturb]
  have fails := endAccess_bad (cycleNow s) n { sl with record := ratedRecord sl.record } 3 (ratingDrafts sl.record)
  rw [failed] at fails
  simp only [rateSlot, List.isEmpty_iff, if_neg changed, fails]
  rfl

end

/-- The two states that a rating rates are those that it does not pass over. -/
theorem not_passedOver {st : SlotState} (h : st = .tracking ∨ st = .stale) : ¬(st ≠ .tracking ∧ st ≠ .stale) :=
  fun ⟨untracked, unstale⟩ => h.elim untracked unstale

section

variable {s : State} {n : Nat}

theorem visitRating_passes (during : Bool) (untracked : (slotAt s.table n).state ≠ .tracking)
    (unstale : (slotAt s.table n).state ≠ .stale) : visitRating n { before := false, during := during } s = s := by
  simp [visitRating, untracked, unstale]

variable (rateable : (slotAt s.table n).state = .tracking ∨ (slotAt s.table n).state = .stale)

include rateable

theorem visitRating_rates (during : Bool) (good : (slotAt s.table n).parityGood = true) :
    visitRating n { before := false, during := during } s = rateSlot n during (slotAt s.table n) s := by
  simp only [visitRating, disturb_false, putSlot_slotAt, if_neg (not_passedOver rateable), if_pos good]

theorem visitRating_fails (u : Upset) (fails : ((slotAt s.table n).parityGood && !u.before) = false) :
    visitRating n u s = afterFault s s.monitor.cycleCount n 3 := by
  have bad : (disturb u.before (slotAt s.table n)).parityGood = false := fails
  rw [← failAccess_eq s s.monitor.cycleCount n 3 u.before fails]
  simp only [visitRating, disturb_state, if_neg (not_passedOver rateable), bad, Bool.false_eq_true, if_false, failAccess_putSlot]
  rfl

end

/-! ### The sweep's way over the table (R106) -/

theorem nextRatingPosition_eq {n : Nat} (inTable : n < 512) :
    nextRatingPosition n = if n = 511 then none else some (n + 1) := by
  unfold nextRatingPosition
  split
  · next below => exact (if_neg (Nat.ne_of_lt below)).symm
  · next last => exact (if_pos (by omega)).symm

/-- A rating step is a visit to the sweep's slot, after which the sweep moves on or ends. -/
theorem exec_ratingStep {s t : State} {n : Nat} {u : Upset} (hr : Running s) (running : s.rating.sweep = some n)
    (inTable : n < 512) (visit : visitRating n u s = t) (rating : t.rating = s.rating) :
    exec (.ratingStep u) s =
      .next { t with rating := { s.rating with sweep := if n = 511 then none else some (n + 1) } } := by
  refine congrArg Host.Outcome.next ((whenRunning_running _ s hr).trans ?_)
  simp only [stepRating, running, visit, rating, nextRatingPosition_eq inTable]

/-! ### SET-GRADING and SET-RATING (R113, R114) -/

theorem setGrading_readable {s : State} {p : Port} {n : Nat} {args : List Byte} {named : PerGrade (Option GradeSetting)}
    (hargs : gradingArgs args = some (n, named)) (readable : Readable s n) :
    setGrading false args (taken s p) =
      (taken (putSlot s n { slotAt s.table n with
        record := { (slotAt s.table n).record with
          settings := installSettings named (slotAt s.table n).record.settings } }) p, some (.bare .ok)) := by
  rw [setGrading, hargs]
  exact onRecord_taken readable _

theorem setRating_layout {s : State} {p : Port} {interval : Nat} (low : 1 ≤ interval) (high : interval ≤ 65535) :
    setRating (leBytes 2 interval) (taken s p) =
      (taken { s with rating := { s.rating with interval := interval, since := 0 } } p, some (.bare .ok)) := by
  have field : fieldAt (leBytes 2 interval) 0 2 = interval := fieldAt_leBytes 2 interval (by omega)
  rw [setRating, field, if_pos ⟨leBytes_length 2 interval, by omega⟩]
  rfl

theorem setRating_wrong {args : List Byte} (s : State) (wrong : args.length ≠ 2 ∨ halfAt args 0 = 0) :
    setRating args s = (s, some (.bare .badValue)) := by
  rw [setRating, fieldAt_half, if_neg (by omega)]
  rfl

end Sys2Proof.Machine
end

section
/-! SUPPORT. The statements of chapter 06, grades and thresholds. -/

namespace Sys2Proof.Safety

open Sys2Proof.Machine

/-! ### The rating interval (R105) -/

/-- Settles O38: by whether the count reaches the interval. -/
theorem ratingFallsDueAtItsInterval : Obligations.RatingFallsDueAtItsInterval := by
  intro s k hr waiting r
  rw [exec_ratingCycleEvent hr, exec_ratingDue hr]
  refine ⟨fun below => ?counted, fun reached => ?due⟩
  case counted =>
    rw [takeRatingEvent_counts waiting below, if_pos below]
    exact ⟨rfl, rfl⟩
  case due =>
    rw [takeRatingEvent_due waiting reached, ratingFallsDue_eq, if_neg (Nat.not_lt.mpr reached)]
    exact ⟨rfl, rfl⟩

/-! ### The rating step (R106 to R110) -/

/-- Settles O39: by the slot's state and its parity at both ends of the access; each flag that changes is one draft. -/
theorem ratingStepRatesTheRecord : Obligations.RatingStepRatesTheRecord := by
  intro s n u hr running inTable sl r cycle moved grade trips rated record changes records viewed stripped
  have step {u : Upset} {t : State} (visit : visitRating n u s = t) (rating : t.rating = s.rating) :
      exec (.ratingStep u) s = .next (moved t) := exec_ratingStep hr running inTable visit rating
  have rates : ratedRecord r = record := by
    simp only [ratedRecord, rateGrade, tripMet_eq]
    rfl
  have drafted (make : Kind → Bool → Nat → Condition) :
      (ratingDrafts r).map (fun d => make d.kind d.urgent d.detail) = records make := by
    simp only [ratingDrafts_map, gradeDrafts_map, rateGrade, tripMet_eq]
    rfl
  have shown : (ratingDrafts r).map (viewedCondition cycle n sl.tag (some (viewOf record))) = viewed :=
    drafted fun kind urgent detail => viewRecord cycle kind urgent n sl.tag record detail
  have bare : (ratingDrafts r).map (viewedCondition cycle n sl.tag none) = stripped :=
    drafted fun kind urgent detail => slotRecord cycle kind urgent n sl.tag detail
  refine ⟨fun untracked unstale => ?passes, fun rateable good => ⟨?rates, fun changed => ?overtaken⟩, fun rateable fails => ?fails⟩
  case passes => exact step (visitRating_passes false untracked unstale) rfl
  case rates =>
    refine step ?_ rfl
    rw [visitRating_rates rateable false good, rateSlot_passes good, rates, shown]
    rfl
  case overtaken =>
    have tripped : ratingDrafts r ≠ [] := fun unchanged => changed (by rw [← shown, unchanged, List.map_nil])
    refine step ?_ rfl
    rw [visitRating_rates rateable true good, rateSlot_fails tripped, rates, bare]
    rfl
  case fails => exact step (visitRating_fails rateable u fails) rfl

/-! ### SET-GRADING, SET-RATING and READ-RATING (R113, R114, R116) -/

/-- Settles O40: each command by its arguments. -/
theorem gradingAndRatingAreSet : Obligations.GradingAndRatingAreSet := by
  refine ⟨fun s p n args named hh hi hargs readable => ?graded, fun s p args hh hi hargs => ?gradingArgs,
    fun s p interval hh low high hi => ?rated, fun s p args hh hi wrong => ?ratingArgs⟩
  case graded =>
    exact congrArg Host.Outcome.next (serve_underLock_answered hh hi .setGrading rfl (setGrading_readable hargs readable))
  case gradingArgs =>
    refine congrArg Host.Outcome.next (serve_underLock_answered hh hi .setGrading rfl ?_)
    rw [setGrading, hargs]
    rfl
  case rated =>
    exact congrArg Host.Outcome.next (serve_underLock_answered hh hi .setRating rfl (setRating_layout low high))
  case ratingArgs =>
    exact congrArg Host.Outcome.next (serve_underLock_answered hh hi .setRating rfl (setRating_wrong _ wrong))

/-- Settles O41: by whether there are arguments; the data is the Rating Unit's state, field by field. -/
theorem readRatingReturnsElevenBytes : Obligations.ReadRatingReturnsElevenBytes := by
  refine ⟨fun s p args hi given => ?badValue, fun s p hi => ?read⟩
  case badValue =>
    exact congrArg Host.Outcome.next (serve_answered hi .readRating rfl (noArgs_cons _ args _ given))
  case read =>
    intro position data
    have bytes : ratingBytes s.rating = data := by
      have shown : s.rating.sweep.getD 0 = position := by
        simp only [position]
        cases s.rating.sweep <;> rfl
      rw [ratingBytes, shown]
      rfl
    refine ⟨?_, by simp [data]⟩
    rw [← bytes]
    exact congrArg Host.Outcome.next (serve_answered hi .readRating rfl rfl)

end Sys2Proof.Safety
end

section
/-! SUPPORT. The Condition Log: the serials it gives as one list, the law of the log in their terms, and the change that each of its
operations makes to them (07, R124, R125, R128). -/

namespace Sys2Proof.Machine

open Sys2Proof.Safety

@[simp] theorem get_perPort {α : Type} (f : Port → α) (p : Port) : (perPort f).get p = f p := by cases p <;> rfl

/-- The making of a hand-off leaves the log as it is (R79). -/
@[simp] theorem releaseHandoff_log (s : State) : (releaseHandoff s).log = s.log := by
  unfold releaseHandoff
  repeat' split
  all_goals rfl

/-! ### The serials of the log -/

/-- The serials held, oldest first, and after them the next serial: the places where a cursor may stand (R124, R128). -/
def serials (l : Log) : List Nat := l.records.map (·.serial) ++ [l.nextSerial]

theorem mem_serials {l : Log} {x : Nat} : x ∈ serials l ↔ x = l.nextSerial ∨ ∃ r ∈ l.records, r.serial = x := by
  simp [serials, or_comm]

theorem nextSerial_mem_serials (l : Log) : l.nextSerial ∈ serials l := mem_serials.mpr (.inl rfl)

theorem serial_mem_serials {l : Log} {r : LogRecord} (held : r ∈ l.records) : r.serial ∈ serials l :=
  mem_serials.mpr (.inr ⟨r, held, rfl⟩)

theorem oldestSerial_mem_serials (l : Log) : oldestSerial l ∈ serials l := by
  unfold oldestSerial
  split
  · exact nextSerial_mem_serials l
  · next r rest held => exact serial_mem_serials (by simp [held])

theorem serialSucc_given {n : Nat} (given : n ≤ max32) : 1 ≤ serialSucc n ∧ serialSucc n ≤ max32 := by
  have largest : max32 = 4294967295 := rfl
  unfold serialSucc
  split <;> omega

/-- Each serial of a list but the last is followed by its successor. -/
def Consecutive : List Nat → Prop
  | [] => True
  | x :: rest => (∀ y, rest.head? = some y → serialSucc x = y) ∧ Consecutive rest

theorem consecutive_singleton (x : Nat) : Consecutive [x] := ⟨fun _ later => (nomatch later), trivial⟩

/-- A record's serial is followed by the next record's or, in the last, by the next serial. -/
theorem consecutive_iff (records : List LogRecord) (next : Nat) :
    (∀ i r, records[i]? = some r → serialSucc r.serial = ((records[i + 1]?).map (·.serial)).getD next)
      ↔ Consecutive (records.map (·.serial) ++ [next]) := by
  induction records with
  | nil => exact ⟨fun _ => consecutive_singleton next, fun _ _ _ held => (nomatch held)⟩
  | cons first rest ih =>
    have second : (∀ y, (rest.map (·.serial) ++ [next]).head? = some y → serialSucc first.serial = y)
        ↔ serialSucc first.serial = ((rest[0]?).map (·.serial)).getD next := by
      cases rest with
      | nil => exact ⟨fun all => all _ rfl, fun eq y hy => eq.trans (Option.some.inj hy)⟩
      | cons r later => exact ⟨fun all => all _ rfl, fun eq y hy => eq.trans (Option.some.inj hy)⟩
    constructor
    · exact fun all => ⟨second.mpr (all 0 first rfl), ih.mp fun i => all (i + 1)⟩
    · rintro ⟨front, others⟩ i r held
      cases i with
      | zero =>
        obtain rfl : first = r := Option.some.inj held
        exact second.mp front
      | succ i => exact ih.mpr others i r held

/-- In consecutive serials the successor of each but the last stands in the list, after the first. -/
theorem serialSucc_mem_tail {held : List Nat} {next x : Nat} (run : Consecutive (held ++ [next])) (hx : x ∈ held) :
    serialSucc x ∈ (held ++ [next]).tail := by
  induction held with
  | nil => cases hx
  | cons first rest ih =>
    obtain ⟨second, run⟩ := run
    obtain rfl | later := List.mem_cons.mp hx
    · cases rest with
      | nil => exact List.mem_singleton.mpr (second next rfl)
      | cons y ys => exact List.mem_cons.mpr (.inl (second y rfl))
    · exact List.mem_of_mem_tail (ih run later)

/-- Consecutive serials stay so when the successor of the last is added. -/
theorem consecutive_concat {held : List Nat} {next : Nat} (run : Consecutive (held ++ [next])) :
    Consecutive (held ++ [next] ++ [serialSucc next]) := by
  induction held with
  | nil => exact ⟨fun y hy => Option.some.inj hy, consecutive_singleton _⟩
  | cons first rest ih =>
    obtain ⟨second, run⟩ := run
    refine ⟨fun y hy => second y ?_, ih run⟩
    cases rest with
    | nil => exact hy
    | cons => exact hy

/-! ### The law of the log -/

/-- `LogLaw` as a law of the log's serials. -/
structure LogOk (l : Log) : Prop where
  atMost : l.records.length ≤ Config.logRecords
  given : ∀ x ∈ serials l, 1 ≤ x ∧ x ≤ max32
  consecutive : Consecutive (serials l)
  standing : ∀ p, l.cursors.get p ∈ serials l

theorem logLaw_iff (s : State) : LogLaw s ↔ LogOk s.log := by
  constructor
  · rintro ⟨atMost, nextGiven, heldGiven, consecutive, standing⟩
    refine ⟨atMost, fun x hx => ?_, (consecutive_iff _ _).mp consecutive, fun p => mem_serials.mpr (standing p)⟩
    obtain rfl | ⟨r, held, rfl⟩ := mem_serials.mp hx
    · exact nextGiven
    · exact heldGiven r held
  · rintro ⟨atMost, given, consecutive, standing⟩
    exact ⟨atMost, given _ (nextSerial_mem_serials _), fun r held => given _ (serial_mem_serials held),
      (consecutive_iff _ _).mpr consecutive, fun p => mem_serials.mp (standing p)⟩

theorem logOk_reset : LogOk .reset where
  atMost := Nat.zero_le _
  given := by decide
  consecutive := consecutive_singleton 1
  standing p := by cases p <;> decide

section

variable {l : Log}

/-- The law speaks of the records, the next serial and the cursors alone. -/
theorem LogOk.congr (h : LogOk l) {m : Log} (records : m.records = l.records) (next : m.nextSerial = l.nextSerial)
    (cursors : m.cursors = l.cursors) : LogOk m := by
  have same : serials m = serials l := by rw [serials, records, next, serials]
  refine ⟨records ▸ h.atMost, same ▸ h.given, same ▸ h.consecutive, fun p => ?_⟩
  rw [cursors, same]
  exact h.standing p

/-- A cursor moved to a serial held or to the next one keeps the law (R129, R131, R137). -/
theorem LogOk.moveCursor (h : LogOk l) (p : Port) {x : Nat} (stands : x ∈ serials l) :
    LogOk { l with cursors := l.cursors.set p x } := by
  refine ⟨h.atMost, h.given, h.consecutive, fun q => ?_⟩
  rw [PerPort.get_set]
  split
  · exact stands
  · exact h.standing q

/-- The successor of a record's serial is that of the next record or the next serial (R124). -/
theorem LogOk.serialSucc_mem (h : LogOk l) {r : LogRecord} (held : r ∈ l.records) : serialSucc r.serial ∈ serials l :=
  List.mem_of_mem_tail (serialSucc_mem_tail h.consecutive (List.mem_map_of_mem held))

/-- The removal of the oldest record takes its serial from the front; a cursor on it goes to the serial after it (R125). -/
theorem logOk_removeOldest (h : LogOk l) (full : ¬l.records.length < Config.logRecords) : LogOk (removeOldest l) := by
  cases records : l.records with
  | nil => simp [records, Config.logRecords] at full
  | cons oldest rest =>
    have front : serials l = oldest.serial :: serials (removeOldest l) := by simp [serials, removeOldest, records]
    refine ⟨?_, fun x hx => h.given x (front ▸ List.mem_cons_of_mem _ hx), ?_, fun p => ?_⟩
    · exact Nat.le_trans (List.length_drop ▸ Nat.sub_le _ 1) h.atMost
    · have run := h.consecutive
      rw [front] at run
      exact run.2
    · have after : serialSucc oldest.serial ∈ serials (removeOldest l) := by
        have := serialSucc_mem_tail h.consecutive (List.mem_map_of_mem (f := (·.serial)) (a := oldest) (by simp [records]))
        change _ ∈ (serials l).tail at this
        rwa [front] at this
      have stood := h.standing p
      rw [front, List.mem_cons] at stood
      have moved : (removeOldest l).cursors.get p
          = if l.cursors.get p = oldest.serial then serialSucc (l.cursors.get p) else l.cursors.get p := by
        simp [removeOldest, overrunAt, records]
      rw [moved]
      split
      · next on => rw [on]; exact after
      · next off => exact stood.resolve_left off

theorem logOk_withRoom (h : LogOk l) : LogOk (withRoom l) ∧ (withRoom l).records.length < Config.logRecords := by
  unfold withRoom
  split
  · next room => exact ⟨h, room⟩
  · next full =>
    refine ⟨logOk_removeOldest h full, ?_⟩
    have := h.atMost
    simp only [removeOldest, List.length_drop, Config.logRecords] at this ⊢
    omega

/-- The serial given to a new record is consecutive to those held (R124). -/
theorem logOk_storeRecord (h : LogOk l) (c : Condition) : LogOk (storeRecord l c) := by
  obtain ⟨ok, room⟩ := logOk_withRoom h
  have grown : serials (storeRecord l c) = serials (withRoom l) ++ [serialSucc (withRoom l).nextSerial] := by
    simp [serials, storeRecord]
  refine ⟨?_, fun x hx => ?_, ?_, fun p => ?_⟩
  · have count : (storeRecord l c).records.length = (withRoom l).records.length + 1 := List.length_append
    exact count ▸ room
  · rw [grown, List.mem_append, List.mem_singleton] at hx
    obtain held | rfl := hx
    · exact ok.given x held
    · exact serialSucc_given (ok.given _ (nextSerial_mem_serials _)).2
  · rw [grown]
    exact consecutive_concat ok.consecutive
  · rw [grown]
    exact List.mem_append_left _ (ok.standing p)

/-- An emptied log keeps the next serial, and every cursor stands on it (R133, R136). -/
theorem logOk_emptyLog (h : LogOk l) : LogOk (emptyLog l) where
  atMost := Nat.zero_le _
  given x hx := by
    obtain rfl : x = l.nextSerial := List.mem_singleton.mp hx
    exact h.given _ (nextSerial_mem_serials l)
  consecutive := consecutive_singleton _
  standing p := by simp [serials, emptyLog]

theorem logOk_resetLogPort (h : LogOk l) (p : Port) : LogOk (resetLogPort p l) :=
  (h.moveCursor p (oldestSerial_mem_serials l)).congr rfl rfl rfl

end

/-! ### What READ-LOG returns (R129) -/

@[simp] theorem readableRecords_nil (limit room : Nat) : readableRecords limit room [] = [] := by simp [readableRecords]

@[simp] theorem readableRecords_zero (room : Nat) (records : List LogRecord) : readableRecords 0 room records = [] := by
  cases records with
  | nil => exact readableRecords_nil 0 room
  | cons => rfl

/-- The records returned are the first of those offered. -/
theorem readableRecords_prefix (limit room : Nat) (records : List LogRecord) : readableRecords limit room records <+: records := by
  induction limit, room, records using readableRecords.induct with
  | case1 limit room => exact (readableRecords_nil limit room).symm ▸ List.nil_prefix
  | case2 room r rest => exact List.nil_prefix
  | case3 room r rest k fits ih =>
    rw [readableRecords, if_pos fits]
    exact List.cons_prefix_cons.mpr ⟨rfl, ih⟩
  | case4 room r rest k large =>
    rw [readableRecords, if_neg large]
    exact List.nil_prefix

theorem unreadRecords_suffix (l : Log) (p : Port) : unreadRecords l p <:+ l.records := by
  unfold unreadRecords
  split
  · exact List.nil_suffix
  · exact List.dropWhile_suffix _

end Sys2Proof.Machine
end

section
/-! SUPPORT. The operations of the Condition Log case by case: an append to a full log and to one with room, an append to an emptied
log, the hand-off that waited, and the records that a READ-LOG returns (07, R123 to R133). -/

namespace Sys2Proof.Machine

open Sys2Proof.Safety

/-! ### An append to a full log (R125) -/

/-- The log is full, and a port's cursor stands on its oldest record (R125). -/
abbrev OnOldest (l : Log) (p : Port) : Prop :=
  128 ≤ l.records.length ∧ (l.records.head?).map (·.serial) = some (l.cursors.get p)

section

variable (l : Log)

theorem onOldest_iff (full : 128 ≤ l.records.length) (p : Port) : OnOldest l p ↔ overrunAt l p = true := by
  unfold OnOldest overrunAt
  cases held : l.records with
  | nil => simp [held] at full
  | cons oldest rest =>
    rw [held] at full
    simp only [full, true_and, List.head?_cons, Option.map_some, Option.some.injEq, beq_iff_eq]
    exact eq_comm

/-- The log as an append finds it, with room: a full one has lost its oldest record (R125). -/
theorem withRoom_eq : withRoom l =
    { l with
      records := if 128 ≤ l.records.length then l.records.drop 1 else l.records,
      cursors := perPort fun p => if OnOldest l p then serialSucc (l.cursors.get p) else l.cursors.get p,
      overruns := perPort fun p => if OnOldest l p then satAdd max16 (l.overruns.get p) 1 else l.overruns.get p } := by
  unfold withRoom
  split
  · next room =>
    have unfull : ¬128 ≤ l.records.length := Nat.not_le.mpr room
    have kept {α : Type} (v : PerPort α) : perPort (fun p => v.get p) = v := PerPort.ext_get fun p => get_perPort _ p
    simp only [OnOldest, unfull, false_and, if_false, kept]
  · next full =>
    have full : 128 ≤ l.records.length := Nat.not_lt.mp full
    simp only [removeOldest, onOldest_iff l full, if_pos full]

theorem overrunEvents_eq : overrunEvents l =
    (allPorts.filter fun p => decide (OnOldest l p)).map fun p => { port := p, latch := .logOverrun } := by
  unfold overrunEvents
  split
  · next room =>
    have unfull : ¬128 ≤ l.records.length := Nat.not_le.mpr room
    simp [OnOldest, unfull]
  · next full => simp only [onOldest_iff l (Nat.not_lt.mp full), Bool.decide_eq_true]

end

/-! ### An append by a source (R79, R123) -/

theorem sourceMayAppend_of {l : Log} {src : LogSource} (may : l.midAccess = none ∨ l.midAccess = some src) :
    sourceMayAppend l src = true := by
  unfold sourceMayAppend
  obtain between | amidOwn := may
  · rw [between]
  · rw [amidOwn]
    exact beq_self_eq_true src

/-- The Classifier's hand-off is made when none of its records waits any longer (R79). -/
theorem releaseHandoff_eq (s : State) : releaseHandoff s =
    { s with
      classifier := if ∀ x ∈ s.appends, x.source ≠ .classifier then none else s.classifier,
      watch := match s.classifier with
        | none => s.watch
        | some h =>
          if ∀ x ∈ s.appends, x.source ≠ .classifier then { s.watch with handoffs := s.watch.handoffs ++ [h] } else s.watch } := by
  have waits : s.appends.any (fun a => a.source == .classifier) = true ↔ ¬∀ x ∈ s.appends, x.source ≠ .classifier := by simp
  unfold releaseHandoff
  cases held : s.classifier with
  | none =>
    simp only [ite_self]
    rw [← held]
  | some h =>
    by_cases release : ∀ x ∈ s.appends, x.source ≠ .classifier
    · simp only [if_neg (mt waits.mp (not_not_intro release)), if_pos release]
    · simp only [if_pos (waits.mpr release), if_neg release]
      rw [← held]

/-- The log takes the oldest append of a source that may append (R123). -/
theorem takeLogAppend_oldest {s : State} {src : LogSource} {a : Append} {before after : List Append}
    (may : s.log.midAccess = none ∨ s.log.midAccess = some src) (waiting : s.appends = before ++ a :: after)
    (own : a.source = src) (oldest : ∀ x ∈ before, x.source ≠ src) :
    takeLogAppend src s = releaseHandoff { appendRecord { s with appends := before ++ after } a.condition with
      log := { storeRecord s.log a.condition with midAccess := if a.last then none else some src } } := by
  unfold takeLogAppend
  rw [if_pos (sourceMayAppend_of may), waiting, takeAppend_eq src a before after own oldest]
  rfl

/-! ### An append to an emptied log (R133, R136) -/

/-- A record appended to a log without records is the only one, and takes no cursor further. -/
theorem appendRecord_empty {s : State} (empty : s.log.records = []) (c : Condition) : appendRecord s c =
    { s with
      log := { s.log with
        records := [{ serial := s.log.nextSerial, condition := c }], nextSerial := serialSucc s.log.nextSerial },
      statusEvents := s.statusEvents ++ alertEvents c,
      posted := s.posted ++ conditionNotices s.log c } := by
  simp [appendRecord, storeRecord, withRoom, overrunEvents, empty, Config.logRecords]

/-! ### The records that READ-LOG returns (R128, R129) -/

/-- A port whose cursor stands at the next serial has no record to read; otherwise it has those from its cursor on. -/
theorem unreadRecords_eq {l : Log} {p : Port} {older unread : List LogRecord} (held : l.records = older ++ unread)
    (passed : ∀ r ∈ older, r.serial ≠ l.cursors.get p)
    (here : unread = [] ∧ l.cursors.get p = l.nextSerial
      ∨ ∃ r later, unread = r :: later ∧ r.serial = l.cursors.get p ∧ l.cursors.get p ≠ l.nextSerial) :
    unreadRecords l p = unread := by
  unfold unreadRecords
  obtain ⟨rfl, atNext⟩ | ⟨r, later, rfl, onRecord, notNext⟩ := here
  · exact if_pos atNext
  · rw [if_neg notNext, held, List.dropWhile_append_of_pos fun x hx => bne_iff_ne.mpr (passed x hx)]
    exact List.dropWhile_cons_of_neg (by simp [onRecord])

/-- READ-LOG returns those records that are as many as its maximum and its room allow. -/
theorem readableRecords_eq {limit room : Nat} {returned rest : List LogRecord} (few : returned.length ≤ limit)
    (fit : (returned.map recordSize).sum ≤ room)
    (full : rest = [] ∨ returned.length = limit
      ∨ ∃ r later, rest = r :: later ∧ room < (returned.map recordSize).sum + recordSize r) :
    readableRecords limit room (returned ++ rest) = returned := by
  induction returned generalizing limit room with
  | nil =>
    rw [List.nil_append]
    obtain rfl | rfl | ⟨r, later, rfl, large⟩ := full
    · exact readableRecords_nil limit room
    · exact readableRecords_zero room rest
    · cases limit with
      | zero => exact readableRecords_zero room _
      | succ k => exact if_neg (by simpa using large)
  | cons first others ih =>
    cases limit with
    | zero => exact absurd few (by simp)
    | succ k =>
      simp only [List.length_cons, List.map_cons, List.sum_cons] at few fit full
      rw [List.cons_append, readableRecords, if_pos (by omega), ih (by omega) (by omega)]
      refine full.imp_right (Or.imp Nat.succ.inj ?_)
      rintro ⟨r, later, rfl, large⟩
      exact ⟨r, later, rfl, by omega⟩

end Sys2Proof.Machine
end

section
/-! SUPPORT. The statements of chapter 07, the Condition Log. -/

namespace Sys2Proof.Safety

open Sys2Proof.Machine

/-! ### The law of the log that every step keeps (R124, R125, R128) -/

section

variable {s : State} (h : LogOk s.log)

include h

theorem takeLogAppend_keeps_logOk (src : LogSource) : LogOk (takeLogAppend src s).log := by
  unfold takeLogAppend
  split
  · split
    · exact h
    · next a rest _ =>
      rw [releaseHandoff_log]
      exact (logOk_storeRecord h a.condition).congr rfl rfl rfl
  · exact h

theorem readLog_keeps_logOk (p : Port) (args : List Byte) : LogOk (readLog p args s).1.log := by
  unfold readLog
  dsimp only
  split
  · split
    · exact h
    · next newest last =>
      have returned := (readableRecords_prefix _ _ _).subset (List.mem_of_getLast? last)
      exact h.moveCursor p (h.serialSucc_mem ((unreadRecords_suffix s.log p).subset returned))
  · exact h

theorem seekLog_keeps_logOk (p : Port) (args : List Byte) : LogOk (seekLog p args s).1.log := by
  unfold seekLog
  split
  · refine h.moveCursor p ?_
    split
    · exact oldestSerial_mem_serials s.log
    · exact nextSerial_mem_serials s.log
  · exact h

theorem setSubscription_keeps_logOk (p : Port) (args : List Byte) : LogOk (setSubscription p args s).1.log := by
  unfold setSubscription
  split
  · exact h.congr rfl rfl rfl
  · exact h

theorem eraseLog_keeps_logOk (p : Port) : LogOk (eraseLog p s).1.log := logOk_storeRecord (logOk_emptyLog h) _

theorem softResetLog_keeps_logOk (p : Port) : LogOk (softResetLog p s).log :=
  logOk_storeRecord (l := { emptyLog s.log with overruns := .all 0 }) ((logOk_emptyLog h).congr rfl rfl rfl) _

/-- Every command keeps the law: outside RESET and the rows of chapter 07 none touches the Condition Log. -/
theorem exec_keeps_logOk (c : Instr) : ∃ t, exec c s = .next t ∧ LogOk t.log := by
  have port (p : Port) (t : State) (a : Access) (ht : LogOk t.log) : LogOk (putPort t p a).log := ht
  cases hc : (touches c).log with
  | false =>
    obtain ⟨t, ht, within⟩ := exec_within c s
    exact ⟨t, ht, within.log hc ▸ h⟩
  | true =>
    cases c with
    | resetAssert => exact ⟨_, rfl, logOk_reset⟩
    | resetRelease =>
      refine ⟨_, rfl, ?_⟩
      split
      · exact logOk_reset
      · exact h
    | logAppend src =>
      exact ⟨_, rfl, whenRunning_keeps (fun t => LogOk t.log) _ s (fun _ ht => takeLogAppend_keeps_logOk ht src) h⟩
    | portResetLog p =>
      refine ⟨_, rfl, ?_⟩
      split
      · split
        · exact h
        · exact logOk_resetLogPort h p
      · exact h
    | softResetLog issuer =>
      refine ⟨_, rfl, ?_⟩
      split
      · split
        · exact softResetLog_keeps_logOk (s := { s with softResets := _ }) h issuer
        · exact h
      · exact h
    | readLog p =>
      exact ⟨_, rfl, serve_keeps (fun t => LogOk t.log) _ p _ s (port p) (fun args _ ht => readLog_keeps_logOk ht p args) h⟩
    | seekLog p =>
      exact ⟨_, rfl, serve_keeps (fun t => LogOk t.log) _ p _ s (port p) (fun args _ ht => seekLog_keeps_logOk ht p args) h⟩
    | setSubscription p =>
      exact ⟨_, rfl, serve_keeps (fun t => LogOk t.log) _ p _ s (port p)
        (fun args _ ht => setSubscription_keeps_logOk ht p args) h⟩
    | eraseLog p =>
      refine ⟨_, rfl, ?_⟩
      split
      · exact h
      · exact serve_keeps (fun t => LogOk t.log) _ p _ s (port p) (fun args t ht =>
          underLock_keeps (fun t => LogOk t.log) p _ args t (fun args t ht =>
            noArgs_keeps (fun t => LogOk t.log) _ args t (fun _ ht => eraseLog_keeps_logOk ht p) ht) ht) h
    | _ => cases hc

end

/-- Settles O45: the law is one of the log's serials, and each operation of the log keeps them consecutive with every cursor
standing on one of them. -/
theorem everyStepKeepsTheLogLaw : Obligations.EveryStepKeepsTheLogLaw := by
  have same : LogLaw = fun s => LogOk s.log := funext fun s => propext (logLaw_iff s)
  unfold Obligations.EveryStepKeepsTheLogLaw
  rw [same]
  refine keptByEveryStep_of _ (fun _ _ h => h) (fun _ h => h) fun c s t h ht => ?_
  obtain ⟨u, hu, keeps⟩ := exec_keeps_logOk h c
  obtain rfl : u = t := Host.Outcome.next.inj (hu.symm.trans ht)
  exact keeps

/-! ### LOG_APPEND (R123 to R127) -/

/-- Settles O42: the append is taken from the log with room for it, and the hand-off released by what is left. -/
theorem logAppendStoresAndAnnounces : Obligations.LogAppendStoresAndAnnounces := by
  intro s src a before after hr may waiting own oldest log c full onOldest next cursor overrun left release subscribers
  have runs : exec (.logAppend src) s = .next (takeLogAppend src s) := congrArg Host.Outcome.next (whenRunning_running _ s hr)
  rw [runs, takeLogAppend_oldest may waiting own oldest, releaseHandoff_eq]
  simp only [appendRecord, storeRecord, withRoom_eq, overrunEvents_eq]
  rfl

/-! ### READ-LOG, SEEK-LOG and READ-LOG-STATUS (R120, R128 to R131, R134) -/

section

variable (s : State) (p : Port) {args : List Byte}

theorem readLog_wrong (wrong : args.length ≠ 1 ∨ byteAt args 0 = 0 ∨ 4 < byteAt args 0) :
    readLog p args s = (s, some (.bare .badValue)) := by
  rw [readLog, fieldAt_byte, if_neg (by omega)]
  rfl

theorem seekLog_wrong (wrong : args.length ≠ 1 ∨ 1 < byteAt args 0) : seekLog p args s = (s, some (.bare .badValue)) := by
  rw [seekLog, fieldAt_byte, if_neg (by omega)]
  rfl

theorem setSubscription_wrong (wrong : args.length ≠ 1 ∨ 63 < byteAt args 0) :
    setSubscription p args s = (s, some (.bare .badValue)) := by
  rw [setSubscription, fieldAt_byte, if_neg (by omega)]
  rfl

end

section

variable {s : State} {p : Port} {limit : Nat} (low : 1 ≤ limit) (high : limit ≤ 4)

include low high

/-- READ-LOG with a maximum in its range, by whether any of the unread records is returned (R129). -/
theorem readLog_limit {unread returned : List LogRecord} (offered : unreadRecords s.log p = unread)
    (readable : readableRecords limit 248 unread = returned) :
    readLog p (leBytes 1 limit) s = match returned.getLast? with
      | none => (s, some (.bare .empty))
      | some newest => (setCursor s p (serialSucc newest.serial), some (.okData
          (leBytes 1 returned.length ++ leBytes 1 (unread.length - returned.length) ++ returned.flatMap recordLayout))) := by
  have field : fieldAt (leBytes 1 limit) 0 1 = limit := fieldAt_leBytes 1 limit (by omega)
  subst offered readable
  rw [readLog, field, if_pos ⟨leBytes_length 1 limit, low, high⟩, logRecordBytes_eq]
  rfl

theorem readLog_empty (offered : unreadRecords s.log p = []) : readLog p (leBytes 1 limit) s = (s, some (.bare .empty)) :=
  readLog_limit low high offered (readableRecords_nil limit 248)

theorem readLog_returns {returned rest : List LogRecord} {newest : LogRecord}
    (offered : unreadRecords s.log p = returned ++ rest) (readable : readableRecords limit 248 (returned ++ rest) = returned)
    (last : returned.getLast? = some newest) :
    readLog p (leBytes 1 limit) s = (setCursor s p (serialSucc newest.serial),
      some (.okData (leBytes 1 returned.length ++ leBytes 1 rest.length ++ returned.flatMap recordLayout))) := by
  have left : (returned ++ rest).length - returned.length = rest.length := by simp
  rw [readLog_limit low high offered readable, last, left]

end

theorem logStatusBytes_eq (l : Log) (p : Port) : logStatusBytes l p =
    leBytes 4 (if l.records = [] then 0 else oldestSerial l) ++ leBytes 4 l.nextSerial ++ leBytes 1 l.records.length
      ++ leBytes 4 (l.cursors.get p) ++ leBytes 1 (unreadRecords l p).length ++ leBytes 2 (l.overruns.get p)
      ++ leBytes 1 (l.subscriptions.get p).toNat := by
  simp only [logStatusBytes, List.isEmpty_iff]

/-- Settles O43: READ-LOG by whether a record is unread, SEEK-LOG by its argument, READ-LOG-STATUS from the log as it stands. -/
theorem logIsReadFromEachCursor : Obligations.LogIsReadFromEachCursor := by
  refine ⟨rfl, rfl, fun s p => ⟨fun older unread held passed here => ⟨fun limit low high hi => ?_, fun hi => ?status⟩,
    fun hi => ?oldest, fun hi => ?newest, fun args hi wrong => ?readArgs, fun args hi wrong => ?seekArgs⟩⟩
  · have offered : unreadRecords (taken s p).log p = unread := unreadRecords_eq held passed here
    refine ⟨?empty, fun returned rest newest split last few fit full => ?returns⟩
    case empty =>
      rintro rfl
      exact congrArg Host.Outcome.next (serve_answered hi .readLog rfl (readLog_empty low high offered))
    case returns =>
      subst split
      exact congrArg Host.Outcome.next (serve_answered hi .readLog rfl
        (readLog_returns low high offered (readableRecords_eq few fit full) last))
  case status =>
    have data := logStatusBytes_eq s.log p
    rw [unreadRecords_eq held passed here] at data
    rw [show exec (.readLogStatus p) s = _ from
      congrArg Host.Outcome.next (serve_answered (t := s) hi .readLogStatus rfl rfl), taken_log, data]
    rfl
  case oldest => exact congrArg Host.Outcome.next (serve_answered hi .seekLog rfl rfl)
  case newest => exact congrArg Host.Outcome.next (serve_answered hi .seekLog rfl rfl)
  case readArgs => exact congrArg Host.Outcome.next (serve_answered hi .readLog rfl (readLog_wrong _ p wrong))
  case seekArgs => exact congrArg Host.Outcome.next (serve_answered hi .seekLog rfl (seekLog_wrong _ p wrong))

/-! ### ERASE-LOG and SET-SUBSCRIPTION (R132, R133) -/

/-- SET-SUBSCRIPTION with a mask of six bits (R132). -/
theorem setSubscription_mask {p : Port} (s : State) (mask : BitVec 6) : setSubscription p (leBytes 1 mask.toNat) s =
    ({ s with log := { s.log with subscriptions := s.log.subscriptions.set p mask } }, some (.bare .ok)) := by
  have field : fieldAt (leBytes 1 mask.toNat) 0 1 = mask.toNat := fieldAt_leBytes 1 _ (by omega)
  rw [setSubscription, field, if_pos ⟨leBytes_length 1 _, mask.isLt⟩, BitVec.ofNat_toNat, BitVec.setWidth_eq]
  rfl

/-- ERASE-LOG empties the log, and LOG_ERASED, which is not URGENT, is its only record (R133). -/
theorem eraseLog_eq (s : State) (p : Port) : eraseLog p s =
    let c := bareRecord s.monitor.cycleCount .logErased false (portNumber p + 256 * s.log.records.length)
    ({ s with
      log := { s.log with
        records := [{ serial := s.log.nextSerial, condition := c }], nextSerial := serialSucc s.log.nextSerial,
        cursors := .all s.log.nextSerial },
      posted := s.posted ++ conditionNotices s.log c }, some (.bare .ok)) := by
  have unalarmed : s.statusEvents ++ alertEvents (plainCondition (cycleNow s) .logErased (removedDetail p s.log))
      = s.statusEvents := List.append_nil _
  rw [eraseLog, appendRecord_empty rfl, unalarmed]
  rfl

/-- ERASE-LOG goes to the log between accesses' records (notes/assumptions/10). -/
theorem exec_eraseLog {s : State} (p : Port) (between : s.log.midAccess = none) :
    exec (.eraseLog p) s = .next (serve .eraseLog p (underLock p (noArgs (eraseLog p))) s) :=
  congrArg Host.Outcome.next (if_neg (by simp [between]))

/-- Settles O44: ERASE-LOG by whether it comes amid an access's records, SET-SUBSCRIPTION by its argument. -/
theorem logIsErasedAndSubscribed : Obligations.LogIsErasedAndSubscribed := by
  refine ⟨fun s p hh between hi => ?erased, fun s p amid => ?waits, fun s p mask hi => ?subscribed,
    fun s p args hi wrong => ?wrong⟩
  case erased =>
    intro log c subscribers
    rw [exec_eraseLog p between]
    exact congrArg Host.Outcome.next (serve_underLock_answered hh hi .eraseLog rfl (eraseLog_eq (taken s p) p))
  case waits => exact congrArg Host.Outcome.next (if_pos (Option.isSome_iff_ne_none.mpr amid))
  case subscribed =>
    exact congrArg Host.Outcome.next (serve_answered hi .setSubscription rfl (setSubscription_mask (taken s p) mask))
  case wrong => exact congrArg Host.Outcome.next (serve_answered hi .setSubscription rfl (setSubscription_wrong _ p wrong))

end Sys2Proof.Safety
end

section
/-! SUPPORT. The Watch Block case by case: counting hits, replacing units and ending a capture, and what each command of chapter 08
makes of the units and the buffer. -/

namespace Sys2Proof.Machine

open Sys2Proof.Safety

/-! ### Units and their partners (R138) -/

theorem PerUnit.ext_get {α : Type} {v w : PerUnit α} (h : ∀ u, v.get u = w.get u) : v = w := by
  cases v
  cases w
  simp only [PerUnit.mk.injEq]
  exact ⟨h .w0, h .w1, h .w2, h .w3⟩

@[simp] theorem unitsBy_get (f : UnitId → WatchUnit) (u : UnitId) : (unitsBy f).get u = f u := by cases u <;> rfl

@[simp] theorem partnerOf_partnerOf (u : UnitId) : partnerOf (partnerOf u) = u := by cases u <;> rfl

theorem partnerOf_eq_iff {u v : UnitId} : partnerOf u = v ↔ u = partnerOf v := by
  constructor <;> rintro rfl <;> simp

@[simp] theorem partnerOf_ne (u : UnitId) : partnerOf u ≠ u := by cases u <;> decide

@[simp] theorem unitIsOdd_partnerOf (u : UnitId) : unitIsOdd (partnerOf u) = !unitIsOdd u := by cases u <;> rfl

theorem oneUnitArg_leBytes (u : UnitId) : oneUnitArg (leBytes 1 (unitNumber u)) = some u := by cases u <;> rfl

/-! ### Counting hits (R142, R143) -/

/-- The hits of a category that a hand-off counts against a unit. -/
def countedHits (units : PerUnit WatchUnit) (u : UnitId) (h : Handoff) (c : Tally) : Nat :=
  if unitCounts units u h.tag c then h.incs.get c else 0

theorem eq_countedHits {units : PerUnit WatchUnit} {u : UnitId} {h : Handoff} {k : Tally → Nat}
    (counts : ∀ c, UnitCounts units u h.tag c → k c = h.incs.get c) (others : ∀ c, ¬UnitCounts units u h.tag c → k c = 0) :
    k = countedHits units u h := by
  funext c
  unfold countedHits
  split
  · next hc => exact counts c ((unitCounts_iff units u h.tag c).mp hc)
  · next hc => exact others c fun hu => hc ((unitCounts_iff units u h.tag c).mpr hu)

section

variable {units : PerUnit WatchUnit} {u : UnitId} {h : Handoff}

theorem countedHits_idle (idle : (units.get u).state ≠ .armed ∨ (units.get u).role = .pairOdd) (c : Tally) :
    countedHits units u h c = 0 := by
  refine if_neg fun hc => ?_
  obtain ⟨armed, _, role⟩ := (unitCounts_iff units u h.tag c).mp hc
  simp_all

theorem countHits_cons (c : Tally) (rest : List Tally) (remaining : Nat) :
    countHits units u h.tag h.incs (c :: rest) remaining =
      if 0 < countedHits units u h c ∧ remaining ≤ countedHits units u h c then (0, some c)
      else countHits units u h.tag h.incs rest (remaining - countedHits units u h c) := rfl

theorem countHits_no_hits (unhit : ∀ c, countedHits units u h c = 0) (l : List Tally) (remaining : Nat) :
    countHits units u h.tag h.incs l remaining = (remaining, none) := by
  induction l with
  | nil => rfl
  | cons c rest ih => rw [countHits_cons, unhit c, if_neg (by omega), Nat.sub_zero, ih]

theorem countHits_fewer (l : List Tally) (remaining : Nat) (few : (l.map (countedHits units u h)).sum < remaining) :
    countHits units u h.tag h.incs l remaining = (remaining - (l.map (countedHits units u h)).sum, none) := by
  induction l generalizing remaining with
  | nil => rfl
  | cons c rest ih =>
    rw [List.map_cons, List.sum_cons] at few ⊢
    rw [countHits_cons, if_neg (by omega), ih _ (by omega), Nat.sub_sub]

theorem countHits_uses_up (before after : List Tally) (c : Tally) (remaining : Nat)
    (few : (before.map (countedHits units u h)).sum < remaining)
    (enough : remaining ≤ (before.map (countedHits units u h)).sum + countedHits units u h c) :
    countHits units u h.tag h.incs (before ++ c :: after) remaining = (0, some c) := by
  induction before generalizing remaining with
  | nil =>
    simp only [List.map_nil, List.sum_nil] at few enough
    rw [List.nil_append, countHits_cons, if_pos (by omega)]
  | cons b rest ih =>
    rw [List.map_cons, List.sum_cons] at few enough
    rw [List.cons_append, countHits_cons, if_neg (by omega), ih _ (by omega) (by omega)]

/-- Hits that do not use a unit up leave it at least one. -/
theorem countHits_none {l : List Tally} {remaining left : Nat}
    (counts : countHits units u h.tag h.incs l remaining = (left, none)) (pos : 1 ≤ remaining) :
    1 ≤ left ∧ left ≤ remaining := by
  induction l generalizing remaining with
  | nil =>
    obtain rfl : remaining = left := congrArg Prod.fst counts
    omega
  | cons c rest ih =>
    rw [countHits_cons] at counts
    split at counts
    · cases counts
    · have := ih counts (by omega)
      omega

theorem hitsOf_eq_of_firing {firing : Option Tally} (answer : (hitsOf units u h).2 = firing) :
    hitsOf units u h = ((hitsOf units u h).1, firing) := Prod.ext rfl answer

/-- A unit that is not ARMED keeps its remaining count. -/
theorem hitsOf_not_armed (h : Handoff) (idle : (units.get u).state ≠ .armed) :
    hitsOf units u h = ((units.get u).remaining, none) :=
  countHits_no_hits (countedHits_idle (.inl idle)) _ _

end

/-! ### Replacing units and ending a capture (R140, R146, R150) -/

/-- The state with its watch units replaced. -/
def withUnits (s : State) (f : UnitId → WatchUnit) : State := { s with watch := { s.watch with units := unitsBy f } }

theorem withUnits_taken (s : State) (p : Port) (f : UnitId → WatchUnit) : withUnits (taken s p) f = taken (withUnits s f) p := rfl

theorem setUnit_eq (s : State) (u : UnitId) (w : WatchUnit) :
    setUnit s u w = withUnits s fun x => if x = u then w else s.watch.units.get x := by
  have units : s.watch.units.set u w = unitsBy fun x => if x = u then w else s.watch.units.get x :=
    PerUnit.ext_get fun x => by rw [PerUnit.get_set, unitsBy_get]
  rw [setUnit, withUnits, units]

theorem setUnit_withUnits (s : State) (f : UnitId → WatchUnit) (u : UnitId) (w : WatchUnit) :
    setUnit (withUnits s f) u w = withUnits s fun x => if x = u then w else f x := by
  rw [setUnit_eq]
  simp only [withUnits, unitsBy_get]

theorem captureCutShort_eq (s : State) (us : List UnitId) :
    captureCutShort s us = match s.watch.capture with
      | none => s
      | some c => if c.full = false ∧ c.source ∈ us then completeCapture c true s else s := rfl

theorem endCaptureOf_eq (u : UnitId) (s : State) : endCaptureOf u s = captureCutShort s [u] := by
  rw [endCaptureOf, captureCutShort_eq]
  cases s.watch.capture with
  | none => rfl
  | some c => simp

/-- A capture that has ended early does not end again. -/
theorem captureCutShort_twice (s : State) (us vs : List UnitId) :
    captureCutShort (captureCutShort s us) vs = captureCutShort s (us ++ vs) := by
  cases hc : s.watch.capture with
  | none => simp [captureCutShort, hc]
  | some c =>
    by_cases ended : c.full = false ∧ c.source ∈ us
    · simp [captureCutShort, hc, ended]
    · have unchanged : captureCutShort s us = s := by simp only [captureCutShort, hc, if_neg ended]
      rw [unchanged]
      simp only [captureCutShort, hc, List.mem_append]
      grind

@[simp] theorem captureCutShort_units (s : State) (us : List UnitId) :
    (captureCutShort s us).watch.units = s.watch.units := by
  unfold captureCutShort
  repeat' split
  all_goals rfl

/-- The buffer after a capture of one of these units has ended. -/
theorem captureCutShort_capture (s : State) (us : List UnitId) :
    (captureCutShort s us).watch.capture =
      s.watch.capture.map fun c => if c.source ∈ us then { c with full := true } else c := by
  cases hc : s.watch.capture with
  | none => simp [captureCutShort, hc]
  | some c =>
    by_cases source : c.source ∈ us
    · obtain ⟨full⟩ := c
      cases full <;> simp_all [captureCutShort]
    · simp [captureCutShort, hc, source]

theorem captureCutShort_taken (s : State) (p : Port) (us : List UnitId) :
    captureCutShort (taken s p) us = taken (captureCutShort s us) p := by
  unfold captureCutShort
  rw [taken_watch]
  repeat' split
  all_goals rfl

/-! ### ARM-WATCH and DISARM-WATCH (R139, R140, R146) -/

/-- The units after ARM-WATCH without the pair flag: a former partner is free. -/
def armedAlone (p : Port) (a : ArmArgs) (units : PerUnit WatchUnit) (x : UnitId) : WatchUnit :=
  if x = a.unit then armedUnit p a .single
  else if x = partnerOf a.unit ∧ (units.get a.unit).role = .pairEven then .free
  else units.get x

/-- The units after ARM-WATCH with the pair flag: the partner is taken over. -/
def armedPair (p : Port) (a : ArmArgs) (m : Matching) (units : PerUnit WatchUnit) (x : UnitId) : WatchUnit :=
  if x = a.unit then armedUnit p a .pairEven else if x = partnerOf a.unit then armedPartner p m else units.get x

section

variable (p : Port) {a : ArmArgs} (s : State)

theorem armUnit_alone (alone : a.partner = none) :
    armUnit p a s = withUnits (captureCutShort s [a.unit]) (armedAlone p a s.watch.units) := by
  have wasEven : ((s.watch.units.get a.unit).role == .pairEven) = true ↔ (s.watch.units.get a.unit).role = .pairEven :=
    beq_iff_eq
  simp only [armUnit, alone, endCaptureOf_eq, wasEven, setUnit_eq (captureCutShort s _), captureCutShort_units]
  split
  · next even =>
    rw [setUnit_withUnits]
    congr 1
    funext x
    have apart := partnerOf_ne a.unit
    unfold armedAlone
    grind
  · next single =>
    congr 1
    funext x
    simp [armedAlone, single]

theorem armUnit_pair {m : Matching} (pair : a.partner = some m) :
    armUnit p a s = withUnits (captureCutShort s [a.unit, partnerOf a.unit]) (armedPair p a m s.watch.units) := by
  simp only [armUnit, pair, endCaptureOf_eq, captureCutShort_twice, List.singleton_append, setUnit_eq (captureCutShort s _),
    captureCutShort_units, setUnit_withUnits]
  congr 1
  funext x
  have apart := partnerOf_ne a.unit
  unfold armedPair
  grind

end

/-- The units that DISARM-WATCH of a unit sets free. -/
def freedWith (units : PerUnit WatchUnit) (u : UnitId) : List UnitId :=
  if (units.get u).role = .single then [u] else [u, partnerOf u]

/-- Units of which some are set free. -/
def freeing (freed : UnitId → Prop) [DecidablePred freed] (units : PerUnit WatchUnit) (x : UnitId) : WatchUnit :=
  if freed x then .free else units.get x

theorem mem_freedWith {units : PerUnit WatchUnit} {u x : UnitId} :
    x ∈ freedWith units u ↔ x = u ∨ x = partnerOf u ∧ (units.get u).role ≠ .single := by
  unfold freedWith
  split
  · next single => simp [single]
  · next paired => simp [paired]

theorem freeUnit_eq (u : UnitId) (s : State) :
    freeUnit u s = withUnits (captureCutShort s (freedWith s.watch.units u))
      (freeing (· ∈ freedWith s.watch.units u) s.watch.units) := by
  unfold freeUnit freeing
  simp only [mem_freedWith]
  by_cases single : (s.watch.units.get u).role = .single
  · rw [if_pos single, freedWith, if_pos single, endCaptureOf_eq, setUnit_eq, captureCutShort_units]
    simp [single]
  · rw [if_neg single, freedWith, if_neg single, endCaptureOf_eq, endCaptureOf_eq, captureCutShort_twice,
      setUnit_eq (captureCutShort _ _), setUnit_withUnits, List.singleton_append, captureCutShort_units]
    congr 1
    funext x
    grind

theorem unitOpenTo_iff (w : WatchUnit) (p : Port) : unitOpenTo w p = true ↔ w.state = .free ∨ w.owner = some p := by
  simp [unitOpenTo]

/-! ### ARM-WATCH (R139, R140) -/

/-- A port may arm these units: the unit it names is FREE or its own, and so is the partner, if it names one (R139). -/
def MayArm (units : PerUnit WatchUnit) (p : Port) (a : ArmArgs) : Prop :=
  ((units.get a.unit).state = .free ∨ (units.get a.unit).owner = some p)
    ∧ (a.partner ≠ none → (units.get (partnerOf a.unit)).state = .free ∨ (units.get (partnerOf a.unit)).owner = some p)

section

variable {p : Port} {args : List Byte} {a : ArmArgs} (s : State) (ha : armArgs args = some a)

theorem armWatch_wrong (wrong : armArgs args = none) : armWatch p args s = (s, some (.bare .badValue)) := by
  rw [armWatch, wrong]
  rfl

theorem mayNotArm_iff : (!unitOpenTo (s.watch.units.get a.unit) p
    || (a.partner.isSome && !unitOpenTo (s.watch.units.get (partnerOf a.unit)) p)) = true ↔ ¬MayArm s.watch.units p a := by
  rw [MayArm, ← unitOpenTo_iff, ← unitOpenTo_iff]
  cases a.partner <;> cases unitOpenTo (s.watch.units.get a.unit) p <;>
    cases unitOpenTo (s.watch.units.get (partnerOf a.unit)) p <;> simp

include ha

/-- ARM-WATCH with arguments in their ranges: NOT_OWNER, then BUSY, then armed (R139). -/
theorem armWatch_eq : armWatch p args s =
    if (!unitOpenTo (s.watch.units.get a.unit) p
        || (a.partner.isSome && !unitOpenTo (s.watch.units.get (partnerOf a.unit)) p)) = true then refuse s .notOwner
    else if (s.watch.units.get a.unit).role = .pairOdd then refuse s .busy
    else done (armUnit p a s) := by
  rw [armWatch, ha]

theorem armWatch_not_owner (foreign : ¬MayArm s.watch.units p a) : armWatch p args s = (s, some (.bare .notOwner)) := by
  rw [armWatch_eq s ha, if_pos ((mayNotArm_iff s).mpr foreign)]
  rfl

theorem armWatch_busy (wanted : MayArm s.watch.units p a) (odd : (s.watch.units.get a.unit).role = .pairOdd) :
    armWatch p args s = (s, some (.bare .busy)) := by
  rw [armWatch_eq s ha, if_neg (fun foreign => (mayNotArm_iff s).mp foreign wanted), if_pos odd]
  rfl

theorem armWatch_arms (wanted : MayArm s.watch.units p a) (even : (s.watch.units.get a.unit).role ≠ .pairOdd) :
    armWatch p args s = (armUnit p a s, some (.bare .ok)) := by
  rw [armWatch_eq s ha, if_neg (fun foreign => (mayNotArm_iff s).mp foreign wanted), if_neg even]
  rfl

end

/-! ### DISARM-WATCH (R146) -/

theorem disarmWatch_eq (p : Port) (u : UnitId) (s : State) : disarmWatch p (leBytes 1 (unitNumber u)) s =
    if (s.watch.units.get u).state = .free then (s, some (.bare .empty))
    else if (s.watch.units.get u).owner = some p then (freeUnit u s, some (.bare .ok))
    else (s, some (.bare .notOwner)) := by
  rw [disarmWatch, oneUnitArg_leBytes]
  rfl

/-! ### READ-WATCH (R147) -/

theorem readWatch_eq (u : UnitId) (s : State) :
    readWatch (leBytes 1 (unitNumber u)) s = (s, some (.okData (unitBytes (s.watch.units.get u)))) := by
  rw [readWatch, oneUnitArg_leBytes]
  rfl

theorem unitBytes_free {w : WatchUnit} (free : w.state = .free) :
    unitBytes w = leBytes 2 0xff00 ++ List.replicate 13 0 ++ leBytes 1 255 ++ List.replicate 8 0 := by
  rw [unitBytes, if_pos free]
  rfl

/-- The bytes of a unit that is not FREE; those of a PAIR-ODD unit's own count and firing are 0 and 255. -/
theorem unitBytes_owned {w : WatchUnit} {q : Port} (held : w.state = .armed ∨ w.state = .fired) (owner : w.owner = some q) :
    unitBytes w =
      leBytes 1 (if w.state = .armed then 1 else 2) ++ leBytes 1 (portNumber q)
        ++ leBytes 1 (match w.role with
          | .single => 0
          | .pairEven => 1
          | .pairOdd => 2)
        ++ leBytes 2 w.low.toNat ++ leBytes 2 w.high.toNat ++ [if w.invert then 1 else 0] ++ leBytes 2 w.mask.toNat
        ++ leBytes 2 (if w.role = .pairOdd then 0 else w.preset) ++ leBytes 2 (if w.role = .pairOdd then 0 else w.remaining)
        ++ leBytes 1 (if w.role = .pairOdd then 0 else w.captureLength)
        ++ (match w.firing, w.role with
          | some f, .single => leBytes 1 (tallyNumber f.category) ++ leBytes 2 f.slot ++ leBytes 2 f.tag.toNat
              ++ leBytes 4 f.cycle.toNat
          | some f, .pairEven => leBytes 1 (tallyNumber f.category) ++ leBytes 2 f.slot ++ leBytes 2 f.tag.toNat
              ++ leBytes 4 f.cycle.toNat
          | _, _ => leBytes 1 255 ++ leBytes 8 0) := by
  have state : w.state ≠ .free ∧ unitStateNumber w.state = if w.state = .armed then 1 else 2 := by
    obtain h | h := held <;> rw [h] <;> decide
  obtain ⟨owned, state⟩ := state
  simp only [unitBytes, if_neg owned, owner, state, flagByte, beq_iff_eq]
  cases w.role <;> cases w.firing <;> rfl

/-! ### READ-CAPTURE and RELEASE-CAPTURE (R151, R152) -/

theorem captureBytes_eq (c : Capture) (first limit : Nat) : captureBytes c first limit =
    leBytes 1 (if c.full then 2 else 1) ++ leBytes 1 (unitNumber c.source) ++ leBytes 1 c.length ++ leBytes 1 c.entries.length
      ++ leBytes 1 ((c.entries.drop first).take limit).length
      ++ ((c.entries.drop first).take limit).flatMap captureLayout := by
  rw [captureBytes, captureEntryBytes_eq]

theorem readCapture_eq {first limit : Nat} (hf : first ≤ 63) (h1 : 1 ≤ limit) (h16 : limit ≤ 16) (p : Port) (s : State) :
    readCapture p (leBytes 1 first ++ leBytes 1 limit) s = match s.watch.capture with
      | none => (s, some (.bare .empty))
      | some c =>
        if c.owner = p then (s, some (.okData (captureBytes c first limit))) else (s, some (.bare .notOwner)) := by
  obtain ⟨firstField, limitField⟩ := fieldAt_two 1 1 first limit (by omega) (by omega)
  simp only [readCapture, firstField, limitField]
  rw [if_pos ⟨by simp, hf, h1, h16⟩]
  rfl

end Sys2Proof.Machine
end

section
/-! SUPPORT. A hand-off case by case: filling and starting a capture, the firings in unit order, and the units and the buffer after it
(08, R141 to R149). -/

namespace Sys2Proof.Machine

open Sys2Proof.Safety

/-! ### Filling a capture (R148, R149) -/

/-- A capture with a hand-off's entry, FULL when the entries reach its length. -/
def recordedIn (c : Capture) (h : Handoff) : Capture :=
  { c with entries := c.entries ++ [captureEntry h], full := decide (c.length ≤ c.entries.length + 1) }

/-- The notice of a capture that one more entry makes FULL. -/
def fillNotices (c : Capture) (h : Handoff) : List Posted :=
  if c.length ≤ c.entries.length + 1 then [captureNotice (recordedIn c h) false] else []

/-- The latch event of a capture that one more entry makes FULL. -/
def fillEvents (c : Capture) : List StatusEvent :=
  if c.length ≤ c.entries.length + 1 then [{ port := c.owner, latch := .captureDone }] else []

/-- A FILLING capture records a hand-off. -/
theorem extendCapture_eq {c : Capture} (filling : c.full = false) (h : Handoff) (s : State) : extendCapture c h s =
    { s with
      watch := { s.watch with capture := some (recordedIn c h) }, posted := s.posted ++ fillNotices c h,
      statusEvents := s.statusEvents ++ fillEvents c } := by
  obtain ⟨full, owner, source, length, low, high, invert, entries⟩ := c
  obtain rfl : full = false := filling
  by_cases fills : length ≤ entries.length + 1
  · simp [extendCapture, completeCapture, recordedIn, fillNotices, fillEvents, fills, post, signal, setCapture,
      captureNotice, sentNotice, captureDoneWord]
  · simp [extendCapture, recordedIn, fillNotices, fillEvents, fills, setCapture, Nat.lt_of_not_le fills]

/-- The capture that a unit opens, before its first entry (R148). -/
def openedBy (u : UnitId) (w : WatchUnit) : Capture :=
  { full := false, owner := w.owner.getD .ap0, source := u, length := w.captureLength, low := w.low, high := w.high,
    invert := w.invert, entries := [] }

section

variable (u : UnitId) {w : WatchUnit} (long : w.captureLength ≠ 0)

include long

/-- The first entry fills a capture of length 1. -/
theorem openedBy_fills : (openedBy u w).length ≤ (openedBy u w).entries.length + 1 ↔ w.captureLength = 1 :=
  show w.captureLength ≤ 0 + 1 ↔ w.captureLength = 1 by omega

theorem fillNotices_openedBy (h : Handoff) : fillNotices (openedBy u w) h =
    if w.captureLength = 1 then [captureNotice (recordedIn (openedBy u w) h) false] else [] := by
  simp only [fillNotices, openedBy_fills u long]

theorem fillEvents_openedBy : fillEvents (openedBy u w) =
    if w.captureLength = 1 then [{ port := w.owner.getD .ap0, latch := .captureDone }] else [] := by
  simp only [fillEvents, openedBy_fills u long]
  rfl

end

theorem startCapture_eq {u : UnitId} {w : WatchUnit} {owner : Port} (owned : w.owner = some owner) (h : Handoff) (s : State) :
    startCapture u w owner h s = extendCapture (openedBy u w) h s := by
  rw [startCapture, openedBy, owned]
  rfl

/-- A buffer that is not EMPTY passes a hand-off by, or records it (R149). -/
theorem passes_or_records (c : Capture) (tag : Half) : (c.full = true ∨ ¬TagFits c.low c.high c.invert tag)
    ∨ c.full = false ∧ TagFits c.low c.high c.invert tag := by
  cases full : c.full with
  | true => exact .inl (.inl rfl)
  | false =>
    by_cases fits : TagFits c.low c.high c.invert tag
    · exact .inr ⟨rfl, fits⟩
    · exact .inl (.inr fits)

theorem offerToCapture_empty {s : State} (empty : s.watch.capture = none) (h : Handoff) : offerToCapture h s = s := by
  rw [offerToCapture, empty]

section

variable {s : State} {c : Capture} (held : s.watch.capture = some c) {h : Handoff}

include held

theorem offerToCapture_passes (passes : c.full = true ∨ ¬TagFits c.low c.high c.invert h.tag) : offerToCapture h s = s := by
  rw [← tagMatches_iff] at passes
  rw [offerToCapture, held]
  refine if_neg ?_
  simp only [Bool.and_eq_true, Bool.not_eq_true']
  grind

theorem offerToCapture_records (filling : c.full = false) (fits : TagFits c.low c.high c.invert h.tag) :
    offerToCapture h s = extendCapture c h s := by
  rw [offerToCapture, held]
  exact if_pos (by simp [filling, (tagMatches_iff ..).mpr fits])

end

@[simp] theorem offerToCapture_units (h : Handoff) (s : State) : (offerToCapture h s).watch.units = s.watch.units := by
  unfold offerToCapture extendCapture
  dsimp only
  repeat' split
  all_goals rfl

@[simp] theorem offerToCapture_appends (h : Handoff) (s : State) : (offerToCapture h s).appends = s.appends := by
  unfold offerToCapture extendCapture
  dsimp only
  repeat' split
  all_goals rfl

/-! ### The firings of a hand-off (R143, R144, R148) -/

/-- The units, of some in unit order, that a hand-off uses up, each with its firing category. -/
def firingsOf (units : PerUnit WatchUnit) (h : Handoff) (us : List UnitId) : List (UnitId × Tally) :=
  us.filterMap fun u => (hitsOf units u h).2.map fun c => (u, c)

theorem mem_firingsOf {units : PerUnit WatchUnit} {h : Handoff} {us : List UnitId} {x : UnitId × Tally} :
    x ∈ firingsOf units h us ↔ x.1 ∈ us ∧ (hitsOf units x.1 h).2 = some x.2 := by
  obtain ⟨u, c⟩ := x
  simp [firingsOf]

/-- The firing that starts a capture: the first one with a capture length, when the buffer is EMPTY. -/
def starterOf (units : PerUnit WatchUnit) (capture : Option Capture) (firings : List (UnitId × Tally)) : Option UnitId :=
  match capture with
  | some _ => none
  | none => (firings.find? fun x => (units.get x.1).captureLength != 0).map (·.1)

section

variable {units : PerUnit WatchUnit}

theorem starterOf_cons (capture : Option Capture) (x : UnitId × Tally) (firings : List (UnitId × Tally)) :
    starterOf units capture (x :: firings) = (starterOf units capture [x]).or (starterOf units capture firings) := by
  cases capture with
  | some c => rfl
  | none =>
    simp only [starterOf, List.find?_cons, List.find?_nil]
    split <;> rfl

/-- The starter fires and has a capture length. -/
theorem starterOf_eq_some {capture : Option Capture} {firings : List (UnitId × Tally)} {u : UnitId}
    (starts : starterOf units capture firings = some u) :
    capture = none ∧ (units.get u).captureLength ≠ 0 ∧ ∃ c, (u, c) ∈ firings := by
  cases capture with
  | some c => cases starts
  | none =>
    obtain ⟨⟨v, c⟩, found, rfl⟩ := Option.map_eq_some_iff.mp starts
    have long := List.find?_some found
    exact ⟨rfl, by simpa using long, c, List.mem_of_find?_eq_some found⟩

end

/-- The capture outcome of a firing unit: 0 no capture length, 1 started, 2 refused (R145). -/
def outcomeOf (units : PerUnit WatchUnit) (starter : Option UnitId) (u : UnitId) : Nat :=
  if (units.get u).captureLength = 0 then 0 else if starter = some u then 1 else 2

/-- What a firing sends: CAPTURE_DONE when it starts a capture of one entry, and WATCH_FIRED (R145, R149). -/
def firedNotices (units : PerUnit WatchUnit) (h : Handoff) (starter : Option UnitId) (x : UnitId × Tally) : List Posted :=
  (if starter = some x.1 ∧ (units.get x.1).captureLength = 1 then
      [captureNotice (recordedIn (openedBy x.1 (units.get x.1)) h) false] else [])
    ++ [sentNotice .watchBlock ((units.get x.1).owner.getD .ap0) .watchFired
      (watchFiredDetail x.1 x.2 (outcomeOf units starter x.1) + 65536 * h.slot)]

/-- The latch event of a capture of one entry that a firing starts. -/
def startEvents (units : PerUnit WatchUnit) : Option UnitId → List StatusEvent
  | some u => if (units.get u).captureLength = 1 then [{ port := (units.get u).owner.getD .ap0, latch := .captureDone }] else []
  | none => []

/-- The record of a firing (R145). -/
def firedRecord (units : PerUnit WatchUnit) (h : Handoff) (starter : Option UnitId) (x : UnitId × Tally) : Condition :=
  watchFiredRecord x.1 x.2 h (outcomeOf units starter x.1)

/-- What a firing sends and records depends on the starter no more than by whether it is the starter. -/
theorem fired_congr {units : PerUnit WatchUnit} {h : Handoff} {st st' : Option UnitId} {x : UnitId × Tally}
    (same : st = some x.1 ↔ st' = some x.1) :
    firedNotices units h st x = firedNotices units h st' x ∧ firedRecord units h st x = firedRecord units h st' x := by
  simp only [firedNotices, firedRecord, outcomeOf, same, and_self]

/-! ### What a hand-off makes of the units (R143, R144) -/

/-- The part of a unit that hits and firings leave as it is. -/
def settingsOf (w : WatchUnit) : WatchUnit := { w with state := .free, remaining := 0, firing := none }

theorem settings_fields {w w' : WatchUnit} (same : settingsOf w = settingsOf w') :
    w.role = w'.role ∧ w.owner = w'.owner ∧ w.captureLength = w'.captureLength ∧ ∀ u, openedBy u w = openedBy u w' := by
  simp only [settingsOf, WatchUnit.mk.injEq] at same
  simp [openedBy, same]

/-- A unit after the count of a hand-off against it. -/
def countedUnit (units : PerUnit WatchUnit) (h : Handoff) (u : UnitId) (w : WatchUnit) : WatchUnit :=
  match hitsOf units u h with
  | (remaining, none) => { w with remaining := remaining }
  | (_, some c) => firedUnit w c h

/-- A unit after the firing, if it fired, of its PAIR-EVEN partner. -/
def pairedUnit (units : PerUnit WatchUnit) (h : Handoff) (u : UnitId) (w : WatchUnit) : WatchUnit :=
  if (units.get u).role = .pairOdd ∧ (hitsOf units (partnerOf u) h).2.isSome then { w with state := .fired } else w

/-- The units after the count of a hand-off against one of them. -/
def unitsCounted (units : PerUnit WatchUnit) (h : Handoff) (u : UnitId) (v : PerUnit WatchUnit) : PerUnit WatchUnit :=
  let t := v.set u (countedUnit units h u (v.get u))
  if (v.get u).role = .pairEven ∧ (hitsOf units u h).2.isSome then
    t.set (partnerOf u) { t.get (partnerOf u) with state := .fired }
  else t

theorem countUnit_eq {units : PerUnit WatchUnit} {h : Handoff} {u : UnitId} {remaining : Nat}
    (counts : hitsOf units u h = (remaining, none)) (s : State) :
    countUnit u remaining s = { s with watch := { s.watch with units := unitsCounted units h u s.watch.units } } := by
  simp [countUnit, unitsCounted, countedUnit, counts, setUnit]

theorem markFired_eq {units : PerUnit WatchUnit} {h : Handoff} {u : UnitId} {r : Nat} {c : Tally}
    (fires : hitsOf units u h = (r, some c)) (s : State) :
    markFired u c h s = { s with watch := { s.watch with units := unitsCounted units h u s.watch.units } } := by
  simp only [markFired, unitsCounted, countedUnit, fires, Option.isSome_some, and_true]
  split <;> rfl

theorem settingsOf_countedUnit (units : PerUnit WatchUnit) (h : Handoff) (u : UnitId) (w : WatchUnit) :
    settingsOf (countedUnit units h u w) = settingsOf w := by
  unfold countedUnit
  split <;> rfl

theorem unitsCounted_get (units : PerUnit WatchUnit) (h : Handoff) (u : UnitId) (v : PerUnit WatchUnit) (x : UnitId) :
    (unitsCounted units h u v).get x =
      if x = u then countedUnit units h u (v.get u)
      else if x = partnerOf u ∧ (v.get u).role = .pairEven ∧ (hitsOf units u h).2.isSome then { v.get x with state := .fired }
      else v.get x := by
  have apart := partnerOf_ne u
  unfold unitsCounted
  dsimp only
  split <;> simp only [PerUnit.get_set] <;> grind

theorem settingsOf_unitsCounted {units : PerUnit WatchUnit} (h : Handoff) (u : UnitId) (v : PerUnit WatchUnit) (x : UnitId) :
    settingsOf ((unitsCounted units h u v).get x) = settingsOf (v.get x) := by
  rw [unitsCounted_get]
  split
  · next same => rw [settingsOf_countedUnit, same]
  split <;> rfl

/-! ### The units of a hand-off, one after another (R141, R143, R144, R148) -/

/-- Pairs are whole: the partner of a PAIR-EVEN unit is PAIR-ODD, and conversely (R138). -/
theorem pairEven_iff {units : PerUnit WatchUnit} (ok : ∀ u, UnitOk units u) (u : UnitId) :
    (units.get u).role = .pairEven ↔ (units.get (partnerOf u)).role = .pairOdd := by
  constructor
  · intro even
    obtain ⟨_, _, _, _, pair, _⟩ := ok u
    exact (pair even).2.1
  · intro odd
    obtain ⟨_, _, _, _, _, pair, _⟩ := ok (partnerOf u)
    exact partnerOf_partnerOf u ▸ (pair odd).2

/-- A unit that a hand-off uses up has an owner. -/
theorem owner_of_fires {units : PerUnit WatchUnit} (ok : ∀ u, UnitOk units u) {u : UnitId} {h : Handoff} {r : Nat} {c : Tally}
    (fires : hitsOf units u h = (r, some c)) : ∃ owner, (units.get u).owner = some owner := by
  obtain ⟨armed, _⟩ := hitsOf_some fires
  obtain ⟨_, owned, _⟩ := ok u
  exact Option.isSome_iff_exists.mp (owned (by rw [armed]; decide))

/-- The units after the count of a hand-off against some of them in turn. -/
def unitsServed (units : PerUnit WatchUnit) (h : Handoff) (us : List UnitId) (v : PerUnit WatchUnit) : PerUnit WatchUnit :=
  us.foldl (fun v u => unitsCounted units h u v) v

section

variable {units : PerUnit WatchUnit} {h : Handoff}

/-- A PAIR-ODD unit counts nothing, so its partner's firing may come before its turn or after it. -/
theorem countedUnit_odd {u : UnitId} (odd : (units.get u).role = .pairOdd) (w : WatchUnit) :
    countedUnit units h u w = { w with remaining := (units.get u).remaining } := by
  rw [countedUnit, hitsOf_odd h odd]

theorem unitsServed_get (ok : ∀ u, UnitOk units u) {us : List UnitId} (distinct : us.Nodup) {v : PerUnit WatchUnit}
    (same : ∀ x, settingsOf (v.get x) = settingsOf (units.get x)) (x : UnitId) :
    (unitsServed units h us v).get x =
      let w := if x ∈ us then countedUnit units h x (v.get x) else v.get x
      if partnerOf x ∈ us then pairedUnit units h x w else w := by
  induction us generalizing v with
  | nil => simp [unitsServed]
  | cons u rest ih =>
    obtain ⟨new, distinct⟩ := List.nodup_cons.mp distinct
    have role := (settings_fields (same u)).1
    have step : (unitsServed units h (u :: rest) v).get x = _ :=
      ih (v := unitsCounted units h u v) distinct fun x => (settingsOf_unitsCounted h u v x).trans (same x)
    rw [step, unitsCounted_get, role]
    obtain rfl | notSame := Decidable.em (x = u)
    · simp [new]
    · obtain rfl | notPartner := Decidable.em (x = partnerOf u)
      · by_cases fires : (units.get u).role = .pairEven ∧ (hitsOf units u h).2.isSome
        · have odd := (pairEven_iff ok u).mp fires.1
          by_cases later : partnerOf u ∈ rest <;> simp [new, pairedUnit, odd, fires, countedUnit_odd, later]
        · have unmarked : ¬((units.get (partnerOf u)).role = .pairOdd ∧ (hitsOf units u h).2.isSome) := by
            rwa [← pairEven_iff ok u]
          simp [new, pairedUnit, fires, unmarked]
      · have apart : partnerOf x ≠ u := fun hx => notPartner (by rw [← hx, partnerOf_partnerOf])
        simp [notSame, notPartner, apart]

end

/-- A unit after a hand-off: counted, or FIRED with its PAIR-EVEN partner. -/
def unitAfter (units : PerUnit WatchUnit) (h : Handoff) (u : UnitId) : WatchUnit :=
  match hitsOf units u h with
  | (_, some c) => firedUnit (units.get u) c h
  | (remaining, none) =>
    if (units.get u).role = .pairOdd ∧ (hitsOf units (partnerOf u) h).2.isSome then { units.get u with state := .fired }
    else { units.get u with remaining := remaining }

theorem unitsServed_all {units : PerUnit WatchUnit} (ok : ∀ u, UnitOk units u) (h : Handoff) :
    unitsServed units h allUnits units = unitsBy (unitAfter units h) := by
  have all (x : UnitId) : x ∈ allUnits := by cases x <;> decide
  refine PerUnit.ext_get fun x => ?_
  rw [unitsServed_get ok (by decide) (fun _ => rfl), unitsBy_get, if_pos (all x)]
  dsimp only
  rw [if_pos (all _), unitAfter]
  cases hx : hitsOf units x h with
  | mk remaining fires =>
    cases fires with
    | some c =>
      obtain ⟨_, even, _⟩ := hitsOf_some hx
      simp [countedUnit, pairedUnit, hx, even]
    | none =>
      simp only [countedUnit, pairedUnit, hx]
      split
      · next odd =>
        obtain rfl : (units.get x).remaining = remaining := congrArg Prod.fst ((hitsOf_odd h odd.1).symm.trans hx)
        rfl
      · rfl

/-- A state after some firings: the units as they then are, the capture that the starter has opened, what is sent. -/
def afterFirings (units : PerUnit WatchUnit) (h : Handoff) (v : PerUnit WatchUnit) (starter : Option UnitId)
    (firings : List (UnitId × Tally)) (s : State) : State :=
  { s with
    watch := { s.watch with
      units := v, capture := (starter.map fun u => recordedIn (openedBy u (units.get u)) h).or s.watch.capture },
    posted := s.posted ++ firings.flatMap (firedNotices units h starter),
    statusEvents := s.statusEvents ++ startEvents units starter }

section

variable {units : PerUnit WatchUnit} {h : Handoff} {u : UnitId} {r : Nat} {c : Tally} {s : State}

/-- One firing: it starts a capture when it has a capture length and the buffer is EMPTY. -/
theorem fireUnit_eq (fires : hitsOf units u h = (r, some c)) {owner : Port} (owned : (units.get u).owner = some owner)
    (same : settingsOf (s.watch.units.get u) = settingsOf (units.get u)) :
    fireUnit u c h s =
      let starter := starterOf units s.watch.capture [(u, c)]
      (afterFirings units h (unitsCounted units h u s.watch.units) starter [(u, c)] s, firedRecord units h starter (u, c)) := by
  obtain ⟨_, ownedNow, length, opened⟩ := settings_fields same
  rw [owned] at ownedNow
  simp only [fireUnit, ownedNow, startCapture_eq ownedNow, opened u, extendCapture_eq (c := openedBy u (units.get u)) rfl,
    markFired_eq fires, captureOutcome, length]
  by_cases short : (units.get u).captureLength = 0
  · have starter : starterOf units s.watch.capture [(u, c)] = none := by cases s.watch.capture <;> simp [starterOf, short]
    simp [starter, afterFirings, firedNotices, firedRecord, outcomeOf, startEvents, short, post, sentNotice, owned]
  · cases buffer : s.watch.capture <;>
      simp [starterOf, afterFirings, firedNotices, firedRecord, outcomeOf, startEvents, short, post, sentNotice, owned, buffer,
        fillNotices_openedBy u short, fillEvents_openedBy u short]

end

section

variable {units : PerUnit WatchUnit} (h : Handoff) {u : UnitId} {c : Tally} {rest : List UnitId} (new : u ∉ rest)
  (v w : PerUnit WatchUnit) (s : State) {first later starter : Option UnitId}

include new

/-- Of a firing and those after it, the first starts the capture, or what starts it is one of the others. -/
theorem starterOf_parts (hfirst : starterOf units s.watch.capture [(u, c)] = first)
    (hlater : starterOf units (afterFirings units h v first [(u, c)] s).watch.capture (firingsOf units h rest) = later)
    (hstarter : starterOf units s.watch.capture ((u, c) :: firingsOf units h rest) = starter) :
    first = none ∧ later = starter ∧ starter ≠ some u ∨ first = some u ∧ later = none ∧ starter = some u := by
  have split := (starterOf_cons s.watch.capture (u, c) (firingsOf units h rest)).symm.trans hstarter
  rw [hfirst] at split
  cases first with
  | none =>
    have others : starterOf units s.watch.capture (firingsOf units h rest) = starter := split
    refine .inl ⟨rfl, hlater.symm.trans others, fun starts => ?_⟩
    obtain ⟨_, _, _, fires⟩ := starterOf_eq_some (others.trans starts)
    exact new (mem_firingsOf.mp fires).1
  | some x =>
    obtain ⟨_, _, _, fires⟩ := starterOf_eq_some hfirst
    obtain rfl : x = u := congrArg Prod.fst (List.mem_singleton.mp fires)
    exact .inr ⟨rfl, hlater.symm, split.symm⟩

/-- One firing and those after it are firings in turn, of which at most one starts a capture. -/
theorem afterFirings_cons
    (parts : first = none ∧ later = starter ∧ starter ≠ some u ∨ first = some u ∧ later = none ∧ starter = some u) :
    afterFirings units h w later (firingsOf units h rest) (afterFirings units h v first [(u, c)] s)
        = afterFirings units h w starter ((u, c) :: firingsOf units h rest) s
      ∧ firedRecord units h first (u, c) :: (firingsOf units h rest).map (firedRecord units h later)
        = ((u, c) :: firingsOf units h rest).map (firedRecord units h starter) := by
  obtain ⟨rfl, rfl, other⟩ | ⟨rfl, rfl, rfl⟩ := parts
  · obtain ⟨notices, record⟩ := fired_congr (units := units) (h := h) (x := (u, c)) (st := none) (st' := later)
      (iff_of_false nofun other)
    rw [List.map_cons, record]
    refine ⟨?_, rfl⟩
    simp [afterFirings, notices, startEvents]
  · have alike (x) (hx : x ∈ firingsOf units h rest) := fired_congr (units := units) (h := h) (x := x) (st := none)
      (st' := some u) (iff_of_false nofun fun hu => new (Option.some.inj hu ▸ (mem_firingsOf.mp hx).1))
    have notices : (firingsOf units h rest).flatMap (firedNotices units h none)
        = (firingsOf units h rest).flatMap (firedNotices units h (some u)) := by
      rw [List.flatMap_def, List.flatMap_def, List.map_congr_left fun x hx => (alike x hx).1]
    have records := List.map_congr_left fun x hx => (alike x hx).2
    rw [List.map_cons, records]
    refine ⟨?_, rfl⟩
    simp [afterFirings, notices, startEvents]

end

/-- The units in turn: what is sent and recorded, firing by firing, and the units counted. -/
theorem serveUnits_eq {units : PerUnit WatchUnit} (ok : ∀ u, UnitOk units u) (h : Handoff) {us : List UnitId}
    (distinct : us.Nodup) (s : State) (same : ∀ x, settingsOf (s.watch.units.get x) = settingsOf (units.get x)) :
    serveUnits units h us s =
      let firings := firingsOf units h us
      let starter := starterOf units s.watch.capture firings
      (afterFirings units h (unitsServed units h us s.watch.units) starter firings s,
        firings.map (firedRecord units h starter)) := by
  induction us generalizing s with
  | nil =>
    have noStart : starterOf units s.watch.capture [] = none := by cases s.watch.capture <;> rfl
    simp [serveUnits, firingsOf, noStart, afterFirings, unitsServed, startEvents]
  | cons u rest ih =>
    obtain ⟨new, distinct⟩ := List.nodup_cons.mp distinct
    have sameNext (x : UnitId) := (settingsOf_unitsCounted (units := units) h u s.watch.units x).trans (same x)
    unfold serveUnits
    split
    · next remaining counts =>
      have firings : firingsOf units h (u :: rest) = firingsOf units h rest := by simp [firingsOf, counts]
      rw [countUnit_eq counts, ih distinct _ sameNext, firings]
      rfl
    · next c fires =>
      have firings : firingsOf units h (u :: rest) = (u, c) :: firingsOf units h rest := by simp [firingsOf, fires]
      obtain ⟨owner, owned⟩ := owner_of_fires ok fires
      simp only [fireUnit_eq fires owned (same u)]
      rw [ih distinct _ sameNext, firings]
      obtain ⟨state, records⟩ := afterFirings_cons h new (unitsCounted units h u s.watch.units)
        (unitsServed units h (u :: rest) s.watch.units) s (starterOf_parts h new _ s rfl rfl rfl)
      exact Prod.ext state records

/-! ### A hand-off (R141) -/

/-- A hand-off with the buffer offered to first: the units counted, the firings in unit order, their records handed over. -/
theorem takeHandoff_eq {s : State} (ok : ∀ u, UnitOk s.watch.units u) (h : Handoff) :
    takeHandoff h s =
      let units := s.watch.units
      let offered := offerToCapture h s
      let firings := firingsOf units h allUnits
      let starter := starterOf units offered.watch.capture firings
      { afterFirings units h (unitsBy (unitAfter units h)) starter firings offered with
        appends := s.appends ++ accessAppends .watchBlock none (firings.map (firedRecord units h starter)) } := by
  simp only [takeHandoff, offerToCapture_units]
  rw [serveUnits_eq ok h (by decide) _ (fun x => by rw [offerToCapture_units]), offerToCapture_units, unitsServed_all ok]
  simp [hand, afterFirings]

/-- A state with the buffer as an offered hand-off leaves it, and what the buffer then sends. -/
def withCapture (s : State) (posted : List Posted) (events : List StatusEvent) (capture : Option Capture) : State :=
  { s with
    watch := { s.watch with capture := capture }, posted := s.posted ++ posted, statusEvents := s.statusEvents ++ events }

theorem withCapture_self {s : State} {capture : Option Capture} (held : s.watch.capture = capture) :
    withCapture s [] [] capture = s := by
  simp [withCapture, ← held]

/-- What a buffer that is not EMPTY makes of a hand-off: one that is FULL or whose range the tag does not fit passes it by, the
others record it, and the last entry of a capture is announced (R149). -/
def Filled (c : Capture) (h : Handoff) (posted : List Posted) (events : List StatusEvent) (capture : Option Capture) : Prop :=
  (c.full = true ∨ ¬TagFits c.low c.high c.invert h.tag → posted = [] ∧ events = [] ∧ capture = some c)
    ∧ (c.full = false → TagFits c.low c.high c.invert h.tag → c.entries.length + 1 < c.length →
        posted = [] ∧ events = [] ∧ capture = some (recordedIn c h))
    ∧ (c.full = false → TagFits c.low c.high c.invert h.tag → c.length ≤ c.entries.length + 1 →
        posted = [captureNotice (recordedIn c h) false] ∧ events = [{ port := c.owner, latch := .captureDone }]
          ∧ capture = some (recordedIn c h))

theorem offerToCapture_fills {s : State} {c : Capture} (held : s.watch.capture = some c) (h : Handoff) :
    ∃ posted events c', Filled c h posted events (some c') ∧ offerToCapture h s = withCapture s posted events (some c') := by
  obtain passes | ⟨filling, fits⟩ := passes_or_records c h.tag
  · have notBoth (filling : c.full = false) (fits : TagFits c.low c.high c.invert h.tag) : False :=
      passes.elim (fun full => nomatch filling.symm.trans full) fun unfit => unfit fits
    exact ⟨[], [], c, ⟨fun _ => ⟨rfl, rfl, rfl⟩, fun filling fits => (notBoth filling fits).elim,
      fun filling fits => (notBoth filling fits).elim⟩, (offerToCapture_passes held passes).trans (withCapture_self held).symm⟩
  · refine ⟨fillNotices c h, fillEvents c, recordedIn c h, ⟨fun passes => ?_, fun _ _ room => ?_, fun _ _ fills => ?_⟩, ?_⟩
    · exact passes.elim (fun full => nomatch filling.symm.trans full) fun unfit => absurd fits unfit
    · simp [fillNotices, fillEvents, Nat.not_le.mpr room]
    · simp [fillNotices, fillEvents, fills]
    · exact (offerToCapture_records held filling fits).trans (extendCapture_eq filling h s)

/-- The state with its oldest hand-off taken. -/
def handoffTaken (s : State) (rest : List Handoff) : State := { s with watch := { s.watch with handoffs := rest } }

/-- The row of a running block takes the oldest hand-off. -/
theorem exec_watchHandoff {s : State} {h : Handoff} {rest : List Handoff} (running : Running s)
    (oldest : s.watch.handoffs = h :: rest) :
    exec .watchHandoff s = .next (takeHandoff h (handoffTaken s rest)) := by
  have taken : stepHandoff s = takeHandoff h (handoffTaken s rest) := by
    rw [stepHandoff, oldest]
    rfl
  exact congrArg Host.Outcome.next ((whenRunning_running _ s running).trans taken)

/-- The row by what the buffer makes of the hand-off that it is offered. -/
theorem exec_watchHandoff_offered {s : State} {h : Handoff} {rest : List Handoff} (running : Running s)
    (ok : ∀ u, UnitOk s.watch.units u) (oldest : s.watch.handoffs = h :: rest) {posted : List Posted}
    {events sent : List StatusEvent} {capture left : Option Capture} {starter : Option UnitId}
    (offered : offerToCapture h (handoffTaken s rest) = withCapture (handoffTaken s rest) posted events capture)
    (starts : starterOf s.watch.units capture (firingsOf s.watch.units h allUnits) = starter)
    (opened : (starter.map fun u => recordedIn (openedBy u (s.watch.units.get u)) h).or capture = left)
    (latches : events ++ startEvents s.watch.units starter = sent) :
    exec .watchHandoff s = .next { s with
      watch := { units := unitsBy (unitAfter s.watch.units h), capture := left, handoffs := rest },
      appends := s.appends ++ accessAppends .watchBlock none
        ((firingsOf s.watch.units h allUnits).map (firedRecord s.watch.units h starter)),
      posted := s.posted ++ posted ++ (firingsOf s.watch.units h allUnits).flatMap (firedNotices s.watch.units h starter),
      statusEvents := s.statusEvents ++ sent } := by
  subst starts opened latches
  rw [exec_watchHandoff running oldest, takeHandoff_eq (s := handoffTaken s rest) ok, offered, ← List.append_assoc]
  rfl

end Sys2Proof.Machine
end

section
/-! SUPPORT. The law of the watch units and the Capture Buffer (R138, R143, R144, R148 to R150), and that each operation of the Watch
Block keeps it. -/

namespace Sys2Proof.Safety

open Sys2Proof.Machine

/-! ### The law of a Watch Block (R138, R143, R144, R148 to R150) -/

/-- The law of the watch units and the Capture Buffer, of the Watch Block alone. -/
def WatchOk (w : Watch) : Prop := (∀ u, UnitOk w.units u) ∧ ∀ c, w.capture = some c → CaptureOk w.units c

theorem watchOk_reset : WatchOk .reset := by
  refine ⟨fun u => ?_, nofun⟩
  simp [UnitOk, Watch.reset, WatchUnit.free]

section

variable {units units' : PerUnit WatchUnit}

theorem unitOk_of_free {u : UnitId} (free : units.get u = .free) : UnitOk units u := by
  simp [UnitOk, free, WatchUnit.free]

/-- What the law says of a unit depends on its partner only when it is of a pair. -/
theorem UnitOk.congr {u : UnitId} (ok : UnitOk units u) (same : units'.get u = units.get u)
    (partner : (units.get u).role ≠ .single → units'.get (partnerOf u) = units.get (partnerOf u)) : UnitOk units' u := by
  obtain ⟨free, owned, armed, fired, even, odd, length⟩ := ok
  unfold UnitOk
  rw [same]
  refine ⟨free, owned, armed, fired, fun role => ?_, fun role => ?_, length⟩
  · rw [partner (by rw [role]; decide)]
    exact even role
  · rw [partner (by rw [role]; decide)]
    exact odd role

/-- The partner of a unit of a pair is of a pair, with the same owner and in the same state. -/
theorem partner_paired (ok : ∀ u, UnitOk units u) {u : UnitId} (paired : (units.get u).role ≠ .single) :
    (units.get (partnerOf u)).role ≠ .single ∧ (units.get (partnerOf u)).owner = (units.get u).owner
      ∧ (units.get (partnerOf u)).state = (units.get u).state := by
  cases role : (units.get u).role with
  | single => exact absurd role paired
  | pairEven =>
    obtain ⟨_, _, _, _, even, _⟩ := ok u
    obtain ⟨_, odd, owner, state⟩ := even role
    exact ⟨by rw [odd]; decide, owner, state⟩
  | pairOdd =>
    have even : (units.get (partnerOf u)).role = .pairEven := (pairEven_iff ok (partnerOf u)).mpr (by rwa [partnerOf_partnerOf])
    obtain ⟨_, _, _, _, pair, _⟩ := ok (partnerOf u)
    obtain ⟨_, _, owner, state⟩ := pair even
    rw [partnerOf_partnerOf] at owner state
    exact ⟨by rw [even]; decide, owner.symm, state.symm⟩

/-- Units set free, a unit of a pair with its partner, leave the law of the others. -/
theorem unitOk_freeing (ok : ∀ u, UnitOk units u) (freed : UnitId → Prop) [DecidablePred freed]
    (closed : ∀ u, (units.get u).role ≠ .single → freed (partnerOf u) → freed u) (u : UnitId) :
    UnitOk (unitsBy (freeing freed units)) u := by
  by_cases hu : freed u
  · exact unitOk_of_free (by simp [freeing, hu])
  · refine (ok u).congr (by simp [freeing, hu]) fun paired => ?_
    have kept : ¬freed (partnerOf u) := fun hp => hu (closed u paired hp)
    simp [freeing, kept]

/-- A capture holds on when its source unit, while it is FILLING, is left as it is. -/
theorem CaptureOk.congr {c : Capture} (ok : CaptureOk units c)
    (same : (units.get c.source).state = .fired → (units.get c.source).role ≠ .pairOdd →
      (units.get c.source).owner = some c.owner → units'.get c.source = units.get c.source) :
    CaptureOk units' c := by
  obtain ⟨entries, fits, length, filling⟩ := ok
  refine ⟨entries, fits, length, fun full => ?_⟩
  obtain ⟨room, fired, role, owner⟩ := filling full
  rw [same fired role owner]
  exact ⟨room, fired, role, owner⟩

end

/-- A capture that is FULL has no more to do with the units. -/
theorem CaptureOk.cutShort {units units' : PerUnit WatchUnit} {c : Capture} (ok : CaptureOk units c) :
    CaptureOk units' { c with full := true } := by
  obtain ⟨entries, fits, length, _⟩ := ok
  exact ⟨entries, fits, length, nofun⟩

/-- Units changed and captures of some ended: the law holds on when the units obey it and the other units, but for those of a
pair that are not its own, are left as they are. -/
theorem watchOk_withUnits {s : State} (ok : WatchOk s.watch) (us : List UnitId) {f : UnitId → WatchUnit}
    (units : ∀ u, UnitOk (unitsBy f) u)
    (others : ∀ u, u ∉ us → (s.watch.units.get u).role ≠ .pairOdd → f u = s.watch.units.get u) :
    WatchOk (withUnits (captureCutShort s us) f).watch := by
  refine ⟨units, fun c held => ?_⟩
  have held : (captureCutShort s us).watch.capture = some c := held
  rw [captureCutShort_capture] at held
  obtain ⟨c, was, rfl⟩ := Option.map_eq_some_iff.mp held
  have ok := ok.2 c was
  split
  · exact ok.cutShort
  · next source => exact ok.congr fun _ role _ => (unitsBy_get f _).trans (others _ source role)

/-! ### Every change of the Watch Block keeps the law -/

section

variable {s : State} (ok : WatchOk s.watch)

include ok

/-- A unit armed alone obeys the law; a former partner is free, and a partner that is no partner is left as it is. -/
theorem armUnit_alone_keeps_watchOk (p : Port) {a : ArmArgs} (range : ArmArgsInRange a)
    (even : (s.watch.units.get a.unit).role ≠ .pairOdd) (alone : a.partner = none) : WatchOk (armUnit p a s).watch := by
  obtain ⟨_, preset, _, length, _⟩ := range
  rw [armUnit_alone p s alone]
  refine watchOk_withUnits ok [a.unit] (fun u => ?_) fun u hu notOdd => ?_
  · by_cases own : u = a.unit
    · simp [UnitOk, own, armedAlone, armedUnit, preset, length]
    by_cases freed : u = partnerOf a.unit ∧ (s.watch.units.get a.unit).role = .pairEven
    · exact unitOk_of_free (by rw [unitsBy_get, armedAlone, if_neg own, if_pos freed])
    refine (ok.1 u).congr (by rw [unitsBy_get, armedAlone, if_neg own, if_neg freed]) fun paired => ?_
    have notUnit : partnerOf u ≠ a.unit := fun partner => by
      have unitPaired := (partner_paired ok.1 paired).1
      rw [partner] at unitPaired
      refine freed ⟨partnerOf_eq_iff.mp partner, ?_⟩
      cases role : (s.watch.units.get a.unit).role <;> simp_all
    have notPartner : partnerOf u ≠ partnerOf a.unit := fun same => own (by simpa using partnerOf_eq_iff.mp same)
    simp [armedAlone, notUnit, notPartner]
  · have notUnit : u ≠ a.unit := by simpa using hu
    have notFreed : ¬(u = partnerOf a.unit ∧ (s.watch.units.get a.unit).role = .pairEven) := by
      rintro ⟨rfl, wasEven⟩
      exact notOdd ((pairEven_iff ok.1 _).mp wasEven)
    rw [armedAlone, if_neg notUnit, if_neg notFreed]

/-- A unit armed with its partner is a whole pair. -/
theorem armUnit_pair_keeps_watchOk (p : Port) {a : ArmArgs} (range : ArmArgsInRange a) {m : Matching}
    (pair : a.partner = some m) : WatchOk (armUnit p a s).watch := by
  obtain ⟨_, preset, _, length, partnerRange⟩ := range
  obtain ⟨_, evenNumber⟩ := partnerRange m pair
  rw [armUnit_pair p s pair]
  refine watchOk_withUnits ok [a.unit, partnerOf a.unit] (fun u => ?_) fun u hu _ => ?_
  · by_cases own : u = a.unit
    · simp [UnitOk, own, armedPair, armedUnit, armedPartner, preset, length, evenNumber]
    by_cases partner : u = partnerOf a.unit
    · simp [UnitOk, partner, armedPair, armedUnit, armedPartner, WatchUnit.free, evenNumber]
    have notUnit : partnerOf u ≠ a.unit := fun same => partner (partnerOf_eq_iff.mp same)
    have notPartner : partnerOf u ≠ partnerOf a.unit := fun same => own (by simpa using partnerOf_eq_iff.mp same)
    exact (ok.1 u).congr (by simp [armedPair, own, partner]) fun _ => by simp [armedPair, notUnit, notPartner]
  · simp_all [armedPair]

theorem armUnit_keeps_watchOk (p : Port) {a : ArmArgs} (range : ArmArgsInRange a)
    (even : (s.watch.units.get a.unit).role ≠ .pairOdd) : WatchOk (armUnit p a s).watch := by
  cases partner : a.partner with
  | none => exact armUnit_alone_keeps_watchOk ok p range even partner
  | some m => exact armUnit_pair_keeps_watchOk ok p range partner

theorem armWatch_keeps_watchOk (p : Port) (args : List Byte) : WatchOk (armWatch p args s).1.watch := by
  cases ha : armArgs args with
  | none => rwa [armWatch_wrong s ha]
  | some a =>
    rw [armWatch_eq s ha]
    split
    · exact ok
    split
    · exact ok
    · next even => exact armUnit_keeps_watchOk ok p (armArgs_iff.mp ha).1 even

theorem freeUnit_keeps_watchOk (u : UnitId) : WatchOk (freeUnit u s).watch := by
  rw [freeUnit_eq]
  refine watchOk_withUnits ok _ (unitOk_freeing ok.1 _ fun x paired => ?_) fun x hx _ => by rw [freeing, if_neg hx]
  rw [mem_freedWith, mem_freedWith]
  rintro (rfl | ⟨same, pairedUnit⟩)
  · refine .inr ⟨(partnerOf_partnerOf x).symm, (partner_paired ok.1 paired).1⟩
  · exact .inl (by simpa using partnerOf_eq_iff.mp same)

theorem disarmWatch_keeps_watchOk (p : Port) (args : List Byte) : WatchOk (disarmWatch p args s).1.watch := by
  unfold disarmWatch
  split
  · exact ok
  split
  · exact ok
  split
  · exact freeUnit_keeps_watchOk ok _
  · exact ok

theorem releaseCapture_keeps_watchOk (p : Port) : WatchOk (releaseCapture p s).1.watch := by
  unfold releaseCapture
  repeat' split
  · exact ok
  · exact ⟨ok.1, nofun⟩
  · exact ok

theorem resetWatchPort_keeps_watchOk (p : Port) : WatchOk (resetWatchPort p s.watch) := by
  have owned (u : UnitId) (paired : (s.watch.units.get u).role ≠ .single)
      (partner : (s.watch.units.get (partnerOf u)).owner = some p) : (s.watch.units.get u).owner = some p :=
    (partner_paired ok.1 paired).2.1.symm.trans partner
  refine ⟨unitOk_freeing ok.1 (fun u => (s.watch.units.get u).owner = some p) owned, fun c held => ?_⟩
  have held : captureAfterPortReset p s.watch.capture = some c := held
  cases was : s.watch.capture with
  | none =>
    rw [was] at held
    cases held
  | some b =>
    rw [was, captureAfterPortReset, Option.ite_none_left_eq_some] at held
    obtain ⟨foreign, same⟩ := held
    obtain rfl : b = c := Option.some.inj same
    refine (ok.2 b was).congr fun _ _ owner => ?_
    have kept : (s.watch.units.get b.source).owner ≠ some p := by
      rw [owner]
      exact fun h => foreign (Option.some.inj h)
    exact (unitsBy_get (freeing (fun u => (s.watch.units.get u).owner = some p) s.watch.units) _).trans (if_neg kept)

end

/-! ### A hand-off keeps the law (R143, R144, R148, R149) -/

section

variable {units : PerUnit WatchUnit} (ok : ∀ u, UnitOk units u) (h : Handoff) (u : UnitId)

/-- What a unit keeps over a hand-off. -/
theorem unitAfter_kept : (unitAfter units h u).role = (units.get u).role ∧ (unitAfter units h u).owner = (units.get u).owner
    ∧ (unitAfter units h u).captureLength = (units.get u).captureLength
    ∧ (unitAfter units h u).preset = (units.get u).preset := by
  unfold unitAfter
  split
  · exact ⟨rfl, rfl, rfl, rfl⟩
  · split <;> exact ⟨rfl, rfl, rfl, rfl⟩

variable {u}

/-- A unit that fires is FIRED with its firing part, and nothing remains. -/
theorem unitAfter_fires {c : Tally} (fires : (hitsOf units u h).2 = some c) :
    unitAfter units h u = firedUnit (units.get u) c h := by
  rw [unitAfter, hitsOf_eq_of_firing fires]

/-- A unit that does not fire, and is not the partner of one that does, has its hits counted. -/
theorem unitAfter_counts (counts : (hitsOf units u h).2 = none)
    (partner : ¬((units.get u).role = .pairOdd ∧ (hitsOf units (partnerOf u) h).2.isSome)) :
    unitAfter units h u = { units.get u with remaining := (hitsOf units u h).1 } := by
  rw [unitAfter, hitsOf_eq_of_firing counts]
  exact if_neg partner

theorem unitAfter_not_free (armed : (units.get u).state = .armed) : (unitAfter units h u).state ≠ .free := by
  have busy : (units.get u).state ≠ .free := by rw [armed]; decide
  unfold unitAfter
  split
  · exact nofun
  split
  · exact nofun
  · exact busy

theorem fires_armed {c : Tally} (fires : (hitsOf units u h).2 = some c) : (units.get u).state = .armed :=
  (hitsOf_some (hitsOf_eq_of_firing fires)).1

include ok

/-- A hand-off leaves a unit that is not ARMED as it is. -/
theorem unitAfter_not_armed (idle : (units.get u).state ≠ .armed) : unitAfter units h u = units.get u := by
  have kept := hitsOf_not_armed h idle
  have partner : ¬((units.get u).role = .pairOdd ∧ (hitsOf units (partnerOf u) h).2.isSome) := by
    rintro ⟨odd, fires⟩
    obtain ⟨c, fires⟩ := Option.isSome_iff_exists.mp fires
    exact idle ((partner_paired ok (by rw [odd]; decide)).2.2.symm.trans (fires_armed h fires))
  rw [unitAfter_counts h (congrArg Prod.snd kept) partner, kept]

/-- The units of a pair fire together. -/
theorem unitAfter_pair (even : (units.get u).role = .pairEven) :
    (unitAfter units h (partnerOf u)).state = (unitAfter units h u).state := by
  have odd := (pairEven_iff ok u).mp even
  have state := (partner_paired ok (u := u) (by rw [even]; decide)).2.2
  have alone : ¬((units.get u).role = .pairOdd ∧ (hitsOf units (partnerOf u) h).2.isSome) := by simp [even]
  cases fires : (hitsOf units u h).2 with
  | some c =>
    rw [unitAfter_fires h fires, unitAfter, hitsOf_odd h odd]
    simp [odd, fires, firedUnit]
  | none =>
    rw [unitAfter_counts h fires alone, unitAfter, hitsOf_odd h odd]
    simp [fires, state]

/-- An ARMED unit after a hand-off: FIRED with its firing part, or ARMED with at least one hit left. -/
theorem unitAfter_armed (armed : (units.get u).state = .armed) (own : (units.get u).role ≠ .pairOdd) :
    (unitAfter units h u).state = .fired ∧ (unitAfter units h u).remaining = 0 ∧ (unitAfter units h u).firing.isSome
      ∨ (unitAfter units h u).state = .armed ∧ 1 ≤ (unitAfter units h u).remaining
        ∧ (unitAfter units h u).remaining ≤ (units.get u).preset ∧ (unitAfter units h u).firing = none := by
  cases fires : (hitsOf units u h).2 with
  | some c =>
    rw [unitAfter_fires h fires]
    exact .inl ⟨rfl, rfl, rfl⟩
  | none =>
    obtain ⟨_, _, count, _⟩ := ok u
    obtain ⟨pos, few, unfired⟩ := count armed own
    have left : 1 ≤ (hitsOf units u h).1 ∧ (hitsOf units u h).1 ≤ (units.get u).remaining :=
      countHits_none (Prod.ext rfl fires) pos
    rw [unitAfter_counts h fires fun odd => own odd.1]
    exact .inr ⟨armed, left.1, Nat.le_trans left.2 few, unfired⟩

/-- The units after a hand-off obey the law. -/
theorem unitOk_unitAfter (u : UnitId) : UnitOk (unitsBy (unitAfter units h)) u := by
  by_cases armed : (units.get u).state = .armed
  · obtain ⟨_, owned, _, _, even, odd, length⟩ := ok u
    obtain ⟨role, owner, captureLength, preset⟩ := unitAfter_kept (units := units) h u
    obtain ⟨partnerRole, partnerOwner, _⟩ := unitAfter_kept (units := units) h (partnerOf u)
    unfold UnitOk
    simp only [unitsBy_get, role, owner, captureLength, preset, partnerRole, partnerOwner]
    refine ⟨fun free => ?_, fun _ => owned (by rw [armed]; decide), fun still own => ?_, fun fired own => ?_, fun pair => ?_,
      odd, length⟩
    · exact absurd free (unitAfter_not_free h armed)
    · obtain ⟨fired, _⟩ | ⟨_, count⟩ := unitAfter_armed ok h armed own
      · rw [still] at fired
        cases fired
      · exact count
    · obtain ⟨_, spent⟩ | ⟨still, _⟩ := unitAfter_armed ok h armed own
      · exact spent
      · rw [fired] at still
        cases still
    · obtain ⟨number, oddRole, oddOwner, _⟩ := even pair
      exact ⟨number, oddRole, oddOwner, unitAfter_pair ok h pair⟩
  · refine (ok u).congr ((unitsBy_get _ u).trans (unitAfter_not_armed ok h armed)) fun paired => ?_
    have partner : (units.get (partnerOf u)).state ≠ .armed :=
      fun partnerArmed => armed ((partner_paired ok paired).2.2.symm.trans partnerArmed)
    exact (unitsBy_get _ _).trans (unitAfter_not_armed ok h partner)

/-- A capture that a firing opens, with its first entry (R148). -/
theorem captureOk_opened {c : Tally} (fires : (hitsOf units u h).2 = some c) (long : (units.get u).captureLength ≠ 0) :
    CaptureOk (unitsBy (unitAfter units h)) (recordedIn (openedBy u (units.get u)) h) := by
  obtain ⟨_, _, _, _, _, _, length⟩ := ok u
  obtain ⟨role, owner, _⟩ := unitAfter_kept (units := units) h u
  obtain ⟨armed, own, _⟩ := hitsOf_some (hitsOf_eq_of_firing fires)
  obtain ⟨port, owned⟩ := owner_of_fires ok (hitsOf_eq_of_firing fires)
  refine ⟨Nat.le_refl 1, Nat.one_le_iff_ne_zero.mpr long, length, fun filling => ?_⟩
  have room : ¬(units.get u).captureLength ≤ 1 := of_decide_eq_false filling
  show 1 < (units.get u).captureLength ∧ ((unitsBy (unitAfter units h)).get u).state = .fired
    ∧ ((unitsBy (unitAfter units h)).get u).role ≠ .pairOdd
    ∧ ((unitsBy (unitAfter units h)).get u).owner = some ((units.get u).owner.getD .ap0)
  rw [unitsBy_get, role, owner, unitAfter_fires h fires, owned]
  exact ⟨by omega, rfl, own, rfl⟩

variable {c : Capture} (held : CaptureOk units c)

include held

omit ok in
theorem captureOk_recordedIn (filling : c.full = false) : CaptureOk units (recordedIn c h) := by
  obtain ⟨_, _, length, source⟩ := held
  obtain ⟨room, fired, role, owner⟩ := source filling
  have entries : (recordedIn c h).entries.length = c.entries.length + 1 := by simp [recordedIn]
  refine ⟨by omega, ?_, length, fun still => ?_⟩
  · rw [entries]
    exact room
  · have more : ¬c.length ≤ c.entries.length + 1 := of_decide_eq_false still
    refine ⟨?_, fired, role, owner⟩
    rw [entries]
    exact Nat.lt_of_not_le more

/-- A hand-off leaves the source unit of a FILLING capture, which is FIRED, as it is. -/
theorem CaptureOk.afterHandoff : CaptureOk (unitsBy (unitAfter units h)) c :=
  held.congr fun fired _ _ => (unitsBy_get _ _).trans (unitAfter_not_armed ok h (by rw [fired]; decide))

end

/-! ### The law of the watch units and the Capture Buffer -/

section

variable {s : State} (ok : WatchOk s.watch)

include ok

theorem offerToCapture_keeps_watchOk (h : Handoff) : WatchOk (offerToCapture h s).watch := by
  cases held : s.watch.capture with
  | none => rwa [offerToCapture_empty held]
  | some c =>
    obtain passes | ⟨filling, fits⟩ := passes_or_records c h.tag
    · rwa [offerToCapture_passes held passes]
    · rw [offerToCapture_records held filling fits, extendCapture_eq filling]
      refine ⟨ok.1, fun c' same => ?_⟩
      obtain rfl : recordedIn c h = c' := Option.some.inj same
      exact captureOk_recordedIn h (ok.2 c held) filling

theorem takeHandoff_keeps_watchOk (h : Handoff) : WatchOk (takeHandoff h s).watch := by
  rw [takeHandoff_eq ok.1]
  refine ⟨unitOk_unitAfter ok.1 h, fun c held => ?_⟩
  cases starts : starterOf s.watch.units (offerToCapture h s).watch.capture (firingsOf s.watch.units h allUnits) with
  | none =>
    have held : (offerToCapture h s).watch.capture = some c := by simpa [afterFirings, starts] using held
    have kept := (offerToCapture_keeps_watchOk ok h).2 c held
    rw [offerToCapture_units] at kept
    exact kept.afterHandoff ok.1 h
  | some u =>
    obtain ⟨_, long, category, fires⟩ := starterOf_eq_some starts
    obtain rfl : recordedIn (openedBy u (s.watch.units.get u)) h = c := by simpa [afterFirings, starts] using held
    exact captureOk_opened ok.1 h (mem_firingsOf.mp fires).2 long

theorem stepHandoff_keeps_watchOk : WatchOk (stepHandoff s).watch := by
  unfold stepHandoff
  split
  · exact ok
  · next h rest _ => exact takeHandoff_keeps_watchOk (s := handoffTaken s rest) ok h

theorem takeLogAppend_keeps_watchOk (src : LogSource) : WatchOk (takeLogAppend src s).watch := by
  unfold takeLogAppend releaseHandoff
  dsimp only
  repeat' split
  all_goals exact ok

theorem takeFrame_keeps_watchOk (u : Upset) : WatchOk (takeFrame u s).watch := by
  unfold takeFrame classifyFrame takeForSlot takeIntoRecord makeHandoff
  dsimp only
  repeat' split
  all_goals exact ok

/-- Every command keeps the law: outside RESET, the hand-offs and the rows of chapter 08 none touches the units or the buffer. -/
theorem exec_keeps_watchOk (c : Instr) : ∃ t, exec c s = .next t ∧ WatchOk t.watch := by
  have port (p : Port) (t : State) (a : Access) (ht : WatchOk t.watch) : WatchOk (putPort t p a).watch := ht
  cases hc : (touches c).watch with
  | false =>
    obtain ⟨t, ht, within⟩ := exec_within c s
    exact ⟨t, ht, within.watch hc ▸ ok⟩
  | true =>
    cases c with
    | resetAssert => exact ⟨_, rfl, watchOk_reset⟩
    | resetRelease =>
      refine ⟨_, rfl, ?_⟩
      split
      · exact watchOk_reset
      · exact ok
    | frameTake u =>
      exact ⟨_, rfl, whenRunning_keeps (fun t => WatchOk t.watch) _ s (fun _ ht => takeFrame_keeps_watchOk ht u) ok⟩
    | logAppend src =>
      exact ⟨_, rfl, whenRunning_keeps (fun t => WatchOk t.watch) _ s (fun _ ht => takeLogAppend_keeps_watchOk ht src) ok⟩
    | watchHandoff =>
      exact ⟨_, rfl, whenRunning_keeps (fun t => WatchOk t.watch) _ s (fun _ ht => stepHandoff_keeps_watchOk ht) ok⟩
    | portResetWatch p =>
      refine ⟨_, rfl, ?_⟩
      split
      · split
        · exact ok
        · exact resetWatchPort_keeps_watchOk ok p
      · exact ok
    | softResetWatch issuer =>
      refine ⟨_, rfl, ?_⟩
      split
      · split
        · exact ok
        · exact watchOk_reset
      · exact ok
    | armWatch p =>
      exact ⟨_, rfl, serve_keeps (fun t => WatchOk t.watch) _ p _ s (port p)
        (fun args _ ht => armWatch_keeps_watchOk ht p args) ok⟩
    | disarmWatch p =>
      exact ⟨_, rfl, serve_keeps (fun t => WatchOk t.watch) _ p _ s (port p)
        (fun args _ ht => disarmWatch_keeps_watchOk ht p args) ok⟩
    | releaseCapture p =>
      exact ⟨_, rfl, serve_keeps (fun t => WatchOk t.watch) _ p _ s (port p) (fun args t ht =>
        noArgs_keeps (fun t => WatchOk t.watch) _ args t (fun _ ht => releaseCapture_keeps_watchOk ht p) ht) ok⟩
    | _ => cases hc

end

end Sys2Proof.Safety
end

section
/-! SUPPORT. The statements of chapter 08, the watch units and the Capture Buffer. -/

namespace Sys2Proof.Safety

open Sys2Proof.Machine

/-! ### The law that every step keeps -/

/-- Settles O49: the law is one of the Watch Block alone, and each of its operations keeps units, pairs and capture within it. -/
theorem everyStepKeepsTheWatchLaw : Obligations.EveryStepKeepsTheWatchLaw := by
  refine keptByEveryStep_of WatchLaw (fun _ _ h => h) (fun _ h => h) fun c s t h ht => ?_
  obtain ⟨u, hu, keeps⟩ := exec_keeps_watchOk h c
  obtain rfl : u = t := Host.Outcome.next.inj (hu.symm.trans ht)
  exact keeps

/-! ### The commands (R139, R140, R146, R147, R150 to R152) -/

/-- Settles O46: each command by the checks it makes in order, and the units and the buffer that it leaves. -/
theorem watchAndCaptureCommandsAct : Obligations.WatchAndCaptureCommandsAct := by
  intro s p units rearranged openTo
  refine ⟨fun args hi wrong => ?badArgs, fun args a hi ha => ?arm, fun u hi => ?disarm, fun u hi => ?read,
    fun first limit hf h1 h16 hi => ?readCapture, fun hi => ?release⟩
  case badArgs => exact congrArg Host.Outcome.next (serve_answered hi .armWatch rfl (armWatch_wrong _ wrong))
  case arm =>
    intro u v armed wanted
    have answers {t : State} {ans : Answer} (hf : armWatch p args (taken s p) = (taken t p, some ans)) :
        exec (.armWatch p) s = .next (answered t p ans) := congrArg Host.Outcome.next (serve_answered hi .armWatch rfl hf)
    refine ⟨fun foreign => answers (armWatch_not_owner _ ha foreign), fun may odd => answers (armWatch_busy _ ha may odd),
      fun may even alone => answers ?_, fun m may even pair => answers ?_⟩
    · rw [armWatch_arms (taken s p) ha may even, armUnit_alone p _ alone, captureCutShort_taken, withUnits_taken]
      rfl
    · rw [armWatch_arms (taken s p) ha may even, armUnit_pair p _ pair, captureCutShort_taken, withUnits_taken]
      rfl
  case disarm =>
    have answers {t : State} {ans : Answer} (hf : disarmWatch p (leBytes 1 (unitNumber u)) (taken s p) = (taken t p, some ans)) :
        exec (.disarmWatch p) s = .next (answered t p ans) := congrArg Host.Outcome.next (serve_answered hi .disarmWatch rfl hf)
    refine ⟨fun free => answers ((disarmWatch_eq ..).trans (if_pos free)), fun held foreign => answers ?_,
      fun held own => answers ?_⟩
    · exact (disarmWatch_eq ..).trans ((if_neg held).trans (if_neg foreign))
    · refine (disarmWatch_eq ..).trans ((if_neg held).trans ((if_pos own).trans ?_))
      rw [freeUnit_eq, captureCutShort_taken, withUnits_taken]
      rfl
  case read =>
    have answers {data : List Byte} (hd : unitBytes (s.watch.units.get u) = data) :
        exec (.readWatch p) s = .next (answered s p (.okData data)) := by
      subst hd
      exact congrArg Host.Outcome.next (serve_answered hi .readWatch rfl (readWatch_eq u _))
    exact ⟨fun free => answers (unitBytes_free free), fun q held owner => answers (unitBytes_owned held owner)⟩
  case readCapture =>
    have answers {ans : Answer}
        (hf : readCapture p (leBytes 1 first ++ leBytes 1 limit) (taken s p) = (taken s p, some ans)) :
        exec (.readCapture p) s = .next (answered s p ans) := congrArg Host.Outcome.next (serve_answered hi .readCapture rfl hf)
    refine ⟨fun empty => answers ?_, fun c held => ⟨fun foreign => answers ?_, fun own => answers ?_⟩⟩
    · rw [readCapture_eq hf h1 h16, taken_watch, empty]
    · simp only [readCapture_eq hf h1 h16, taken_watch, held, if_neg foreign]
    · simp only [readCapture_eq hf h1 h16, taken_watch, held, if_pos own, captureBytes_eq]
  case release =>
    have answers {t : State} {ans : Answer} (hf : releaseCapture p (taken s p) = (taken t p, some ans)) :
        exec (.releaseCapture p) s = .next (answered t p ans) :=
      congrArg Host.Outcome.next (serve_answered hi .releaseCapture rfl hf)
    refine ⟨fun empty => answers ?_, fun c held => ⟨fun foreign => answers ?_, fun own => answers ?_⟩⟩
    · rw [releaseCapture, taken_watch, empty]
      rfl
    · simp only [releaseCapture, taken_watch, held, if_neg foreign]
      rfl
    · simp only [releaseCapture, taken_watch, held, if_pos own]
      rfl

/-! ### Hits and hand-offs (R141 to R145, R148, R149) -/

/-- Settles O47: the count of a unit is an induction over the categories in tally order. -/
theorem hitsAreCountedInTallyOrder : Obligations.HitsAreCountedInTallyOrder := by
  intro units u h k counts others all remaining
  obtain rfl := eq_countedHits counts others
  refine ⟨fun idle => ?_, fun few => countHits_fewer _ _ few, fun before c after split few enough => ?_⟩
  · refine countHits_no_hits ?_ _ _
    obtain idle | idle | unhit := idle
    · exact countedHits_idle (.inl idle)
    · exact countedHits_idle (.inr idle)
    · exact unhit
  · have split : allTallies = before ++ c :: after := split
    rw [hitsOf, split]
    exact countHits_uses_up before after c _ few enough

/-- Settles O48: the hand-off by whether the buffer is EMPTY, passes it by or records it, and the firings in unit order. -/
theorem handoffCountsFiresAndCaptures : Obligations.HandoffCountsFiresAndCaptures := by
  intro s h rest running law oldest units firing owner entry extended opened starter outcome filled fired record after
  cases held : s.watch.capture with
  | none =>
    have passed := (offerToCapture_empty (s := handoffTaken s rest) held h).trans
      (withCapture_self (s := handoffTaken s rest) held).symm
    exact ⟨[], startEvents units starter, starter.map opened, nofun, fun _ => ⟨rfl, rfl, rfl⟩,
      exec_watchHandoff_offered running law.1 oldest passed (congrArg (starterOf units · firing) held.symm) Option.or_none rfl⟩
  | some c =>
    obtain ⟨posted, events, c', fills, offered⟩ := offerToCapture_fills (s := handoffTaken s rest) held h
    have noStart : starter = none := congrArg (starterOf units · firing) held
    refine ⟨posted, events, some c', fun x hx => ?_, nofun,
      exec_watchHandoff_offered running law.1 oldest offered noStart.symm ?_ ?_⟩
    · obtain rfl : c = x := Option.some.inj hx
      exact fills
    · rw [noStart]
      rfl
    · rw [noStart]
      exact List.append_nil events

end Sys2Proof.Safety
end

section
/-! SUPPORT. The exchange of a port case by case: the bytes of a request and the checks on them, what a port makes of the bytes,
when an answer may be given, and the work of the status commands on a port (09, R155 to R168). -/

namespace Sys2Proof.Machine

open Sys2Proof.Safety

/-! ### The bytes of a request (R156, R160) -/

section

variable {got : List Byte}

theorem byteAt_cons_zero (b : Byte) (rest : List Byte) : byteAt (b :: rest) 0 = b.toNat := rfl

/-- No bytes, or fewer than a length byte in range says, complete no frame. -/
theorem completeFrame_partial (h : got = [] ∨ (4 ≤ byteAt got 0 ∧ byteAt got 0 ≤ 72 ∧ got.length < byteAt got 0)) :
    completeFrame got = none := by
  cases got with
  | nil => rfl
  | cons len rest =>
    obtain h | ⟨low, high, few⟩ := h
    · cases h
    · have few : ¬len.toNat ≤ rest.length + 1 := Nat.not_le.mpr few
      rw [completeFrame, if_pos ((lengthGood_iff len).mpr ⟨low, high⟩), if_neg few]

/-- A length byte out of range is a frame by itself. -/
theorem completeFrame_badLength (begun : got ≠ []) (out : byteAt got 0 < 4 ∨ 72 < byteAt got 0) :
    ∃ len, lengthGood len = false ∧ completeFrame got = some [len] := by
  cases got with
  | nil => exact absurd rfl begun
  | cons len rest =>
    rw [byteAt_cons_zero] at out
    have bad : ¬lengthGood len = true := by
      rw [lengthGood_iff]
      omega
    exact ⟨len, Bool.eq_false_iff.mpr bad, if_neg bad⟩

/-- Bytes complete a frame when their length byte is out of range, or they are as many as it says. -/
theorem completeFrame_complete (begun : got ≠ [])
    (h : byteAt got 0 < 4 ∨ 72 < byteAt got 0 ∨ byteAt got 0 ≤ got.length) : ∃ frame, completeFrame got = some frame := by
  by_cases out : byteAt got 0 < 4 ∨ 72 < byteAt got 0
  · obtain ⟨len, _, complete⟩ := completeFrame_badLength begun out
    exact ⟨_, complete⟩
  · cases got with
    | nil => exact absurd rfl begun
    | cons len rest =>
      rw [byteAt_cons_zero] at h out
      have good : lengthGood len = true := (lengthGood_iff len).mpr (by omega)
      have enough : len.toNat ≤ (len :: rest).length := by omega
      exact ⟨_, (if_pos good).trans (if_pos enough)⟩

end

section

variable {len code number check : Byte} {args : List Byte} (counted : len.toNat = args.length + 4) (short : args.length ≤ 68)

include counted short

theorem lengthGood_of_args : lengthGood len = true := by
  rw [lengthGood_iff]
  omega

/-- A whole request is its length byte, code, number, arguments and check byte; later bytes are no part of it. -/
theorem completeFrame_whole (extra : List Byte) :
    completeFrame ((len :: code :: number :: args) ++ check :: extra) = some ((len :: code :: number :: args) ++ [check]) := by
  have size : ((len :: code :: number :: args) ++ [check]).length = len.toNat := by simp [counted]
  have enough : len.toNat ≤ (args ++ check :: extra).length + 3 := by simp only [List.length_append, List.length_cons]; omega
  rw [← List.take_left' (l₂ := extra) size, ← List.append_cons]
  exact (if_pos (lengthGood_of_args counted short)).trans (if_pos enough)

/-- A whole request that sums to 0 is refused only for a code that is not in the book (R160). -/
theorem frameRefusal_whole (sum : sumBytes ((len :: code :: number :: args) ++ [check]) = 0) :
    frameRefusal ((len :: code :: number :: args) ++ [check]) = if codeKnown code then none else some .unknownCommand := by
  have good : ¬(!lengthGood len) = true := by simp [lengthGood_of_args counted short]
  refine (if_neg good).trans ((if_neg (not_not_intro sum)).trans ?_)
  simp only [Bool.not_eq_true', frameRequest, List.cons_append]
  cases codeKnown code <;> rfl

end

theorem frameRequest_whole (len code number check : Byte) (args : List Byte) :
    frameRequest ((len :: code :: number :: args) ++ [check]) =
      { code := code, number := number, args := args, taken := false } := by
  simp [frameRequest]

theorem frameRefusal_badLength {len : Byte} (bad : lengthGood len = false) : frameRefusal [len] = some .badFrame :=
  if_pos (by simp [bad])

theorem frameRefusal_badSum {frame : List Byte} (sum : sumBytes frame ≠ 0) : frameRefusal frame = some .badFrame := by
  rw [frameRefusal, if_pos sum, ite_self]

/-- The response frame of an answer without data (R161). -/
theorem responseFrame_bare (code : Response) : responseFrame (.bare code) = [responseCode code, 0, -responseCode code] := by
  simp [responseFrame, Answer.bare, checkByte, sumBytes]

/-! ### What a port makes of bytes (R157, R159, R160, R162) -/

theorem exec_requestComplete {s : State} (released : s.startup ≠ .resetAsserted) (p : Port) (bytes : List Byte) :
    exec (.requestComplete p bytes) s = .next (putPort s p (receiveBytes bytes (s.ports.get p))) :=
  congrArg Host.Outcome.next (if_neg released)

@[simp] theorem putPort_self (s : State) (p : Port) : putPort s p (s.ports.get p) = s := by simp [putPort]

section

variable {a : Access} {bytes frame : List Byte}

theorem receiveBytes_ignored (h : a.state = .executing ∨ a.state = .answering ∨ a.select = .refused) :
    receiveBytes bytes a = a := by
  unfold receiveBytes
  obtain h | h | h := h <;> simp [h]

theorem receiveBytes_idle (idle : a.state = .idle) (accepted : a.select ≠ .refused) :
    receiveBytes bytes a = receiveIdle bytes a := by
  simp [receiveBytes, idle, accepted]

theorem receiveBytes_init (init : a.state = .init) (accepted : a.select ≠ .refused) :
    receiveBytes bytes a = receiveInit bytes a := by
  simp [receiveBytes, init, accepted]

/-- After a request completed in INIT the further bytes are ignored (R162). -/
theorem receiveBytes_init_answered (init : a.state = .init) (completed : a.response ≠ []) : receiveBytes bytes a = a := by
  by_cases refused : a.select = .refused
  · exact receiveBytes_ignored (.inr (.inr refused))
  · rw [receiveBytes_init init refused]
    exact if_neg (by simpa using completed)

theorem receiveIdle_partial (h : completeFrame (a.received ++ bytes) = none) :
    receiveIdle bytes a = { a with select := .open_, received := a.received ++ bytes } := by
  rw [receiveIdle, h]
  rfl

/-- A request completed in IDLE that fails a check is answered at once (R160). -/
theorem receiveIdle_refused {code : Response} (h : completeFrame (a.received ++ bytes) = some frame)
    (refused : frameRefusal frame = some code) :
    receiveIdle bytes a = { a with
      state := .answering, select := .open_, received := [], answer := none,
      response := [responseCode code, 0, -responseCode code], request := some (frameRequest frame) } := by
  rw [← responseFrame_bare, receiveIdle, h]
  simp only [acceptFrame, refused]

/-- A request completed in IDLE that passes the checks is in hand (R157). -/
theorem receiveIdle_accepted (h : completeFrame (a.received ++ bytes) = some frame) (passes : frameRefusal frame = none) :
    receiveIdle bytes a = { a with
      state := .executing, select := .open_, received := [], answer := none, request := some (frameRequest frame) } := by
  rw [receiveIdle, h]
  simp only [acceptFrame, passes]

theorem receiveInit_partial (unanswered : a.response = []) (h : completeFrame (a.received ++ bytes) = none) :
    receiveInit bytes a = { a with select := .open_, received := a.received ++ bytes } := by
  rw [receiveInit, if_pos (by simp [unanswered]), h]
  rfl

/-- A request completed in INIT is answered NOT_READY (R162). -/
theorem receiveInit_complete (unanswered : a.response = []) (h : completeFrame (a.received ++ bytes) = some frame) :
    receiveInit bytes a = { a with select := .open_, received := [], response := [0x10, 0, -0x10] } := by
  rw [receiveInit, if_pos (by simp [unanswered]), h]
  exact congrArg (fun r => { a with select := .open_, received := [], response := r }) (responseFrame_bare .notReady)

end

/-! ### Answers and their delivery (R157, R158, R163, R169) -/

theorem partsOutstanding_iff (o : Option PortResetParts) : partsOutstanding o = true ↔ ∃ parts, o = some parts
    ∧ ¬(parts.notices = true ∧ parts.marks = true ∧ parts.log = true ∧ parts.lock = true ∧ parts.watch = true) := by
  cases o with
  | none => simp [partsOutstanding]
  | some parts => simp only [partsOutstanding, Bool.not_eq_true', Bool.eq_false_iff, Bool.and_eq_true, and_assoc, ne_eq,
      Option.some.injEq, exists_eq_left']

theorem appendsOutstanding_iff (s : State) (p : Port) :
    appendsOutstanding s p = true ↔ ∃ x ∈ s.appends, x.holds = some p := by
  simp [appendsOutstanding]

section

variable {s : State} {p : Port} {ans : Answer} (executing : (s.ports.get p).state = .executing)
  (formed : (s.ports.get p).answer = some ans)

include executing formed

theorem answerPort_waits (waits : (partsOutstanding (s.portResets.get p) || appendsOutstanding s p) = true) :
    answerPort p s = s := by
  simp only [answerPort, executing, formed, waits, if_true]

theorem answerPort_gives (ready : (partsOutstanding (s.portResets.get p) || appendsOutstanding s p) = false) :
    answerPort p s =
      putPort { s with portResets := s.portResets.set p none } p (deliverAnswer (s.ports.get p) ans) := by
  simp only [answerPort, executing, formed, ready, Bool.false_eq_true, if_false]

end

/-- The end of an exchange writes its record (R163). -/
theorem endExchange_eq {a : Access} {r : Request} (inHand : a.request = some r) (code : Byte) (delivery : Delivery) :
    endExchange a code delivery = { a with
      state := .idle, request := none, answer := none, response := [],
      exchange := some { number := r.number, code := r.code, response := code, delivery := delivery } } := by
  rw [endExchange, inHand]
  rfl

theorem exec_selectRelease {s : State} (released : s.startup ≠ .resetAsserted) (p : Port) (sent : Nat) :
    exec (.selectRelease p sent) s =
      .next (putPort s p (releaseSelect (s.startup == .running) sent (s.ports.get p))) :=
  congrArg Host.Outcome.next (if_neg released)

section

variable {a : Access} {running : Bool} {sent : Nat}

/-- The end of a refused period (R159). -/
theorem releaseSelect_refused (refused : a.select = .refused) :
    releaseSelect running sent a = { a with select := .released } := by
  rw [releaseSelect, refused]

/-- The end of an open period, by the port state (R158, R162). -/
theorem releaseSelect_open (isOpen : a.select = .open_) : releaseSelect running sent a = releasePeriod running sent a := by
  rw [releaseSelect, isOpen]

end

/-! ### Status and ATTN (R164 to R168) -/

/-- What a port's own command makes of its port, written on the port before its request was marked as taken. -/
theorem putPort_markTaken (s : State) (p : Port) (a : Access) : putPort (taken s p) p (markTaken a) = taken (putPort s p a) p := by
  simp [taken, putPort, markTaken]

@[simp] theorem taken_port (s : State) (p : Port) : (taken s p).ports.get p = markTaken (s.ports.get p) :=
  PerPort.get_set_same ..

/-- The status of a port that has been replaced (R164). -/
theorem statusOf_putPort (s : State) (p : Port) (a : Access) :
    statusOf (putPort s p a) p = statusBits a.latches (s.queues.get p) := by
  simp [statusOf]

/-- CLEAR-STATUS and SET-ATTENTION take one byte, a mask of five bits (R166, R167). -/
theorem fiveBits_iff (args : List Byte) :
    (args.length = 1 ∧ fieldAt args 0 1 < 32) ↔ ¬(args.length ≠ 1 ∨ 31 < byteAt args 0) := by
  rw [fieldAt_byte]
  omega

theorem fieldAt_fiveBits (mask : BitVec 5) : fieldAt (leBytes 1 mask.toNat) 0 1 = mask.toNat := fieldAt_leBytes 1 _ (by omega)

/-- The latches that a mask of five bits names are cleared (R167). -/
theorem latchesClear_fiveBits (l : Latches) (mask : BitVec 5) : latchesClear l (BitVec.ofNat 8 mask.toNat) =
    { noticeOverflow := l.noticeOverflow && !mask.getLsbD 1, logOverrun := l.logOverrun && !mask.getLsbD 2,
      captureDone := l.captureDone && !mask.getLsbD 3, deviceAlert := l.deviceAlert && !mask.getLsbD 4 } := by
  simp [latchesClear]

section

variable (p : Port) (s : State) (mask : BitVec 5)

theorem clearStatus_mask : clearStatus p (leBytes 1 mask.toNat) s =
    let cleared := latchesClear (s.ports.get p).latches (BitVec.ofNat 8 mask.toNat)
    (putPort s p { s.ports.get p with latches := cleared },
      some (.okData (leBytes 1 (statusBits cleared (s.queues.get p)).toNat))) := by
  have inRange : mask.toNat < 32 := mask.isLt
  rw [clearStatus, fieldAt_fiveBits, if_pos ⟨leBytes_length 1 _, inRange⟩]
  simp only [statusOf_putPort]
  rfl

theorem setAttention_mask : setAttention p (leBytes 1 mask.toNat) s =
    let b := attended { s.ports.get p with enables := mask } (s.queues.get p)
    (putPort s p b, some (.okData [if b.attn then 1 else 0])) := by
  have inRange : mask.toNat < 32 := mask.isLt
  rw [setAttention, fieldAt_fiveBits, if_pos ⟨leBytes_length 1 _, inRange⟩, BitVec.ofNat_toNat, BitVec.setWidth_eq,
    evaluateAttn_eq]
  rfl

/-- REARM-ATTENTION sets an ASSERTED ATTN QUIET and evaluates it: it stands exactly for an enabled source (R165, R166). -/
theorem rearmAttention_asserted (asserted : (s.ports.get p).attn = true) : rearmAttention p s =
    let due := enabledSource (s.ports.get p) (s.queues.get p)
    (putPort s p { s.ports.get p with attn := due }, some (.okData [if due then 1 else 0])) := by
  rw [rearmAttention]
  simp only [asserted, if_true, evaluateAttn_eq, attended, Bool.false_or]
  rfl

theorem rearmAttention_quiet (quiet : (s.ports.get p).attn = false) : rearmAttention p s = (s, some (.okData [0])) := by
  rw [rearmAttention]
  simp only [quiet, Bool.false_eq_true, if_false, putPort_self]
  rfl

end

/-- The four bytes of the last exchange, 0 when there is none (R163, R167). -/
theorem exchangeBytes_eq (e : Option Exchange) : exchangeBytes e =
    match e with
    | none => [0, 0, 0, 0]
    | some e => [e.number, e.code, e.response, match e.delivery with
        | .whole => 1
        | .cut => 2] := by
  cases e with
  | none => rfl
  | some e => cases h : e.delivery <;> simp [exchangeBytes, h, deliveryNumber, leBytes]

end Sys2Proof.Machine
end

section
/-! SUPPORT. The parts of a port reset and of a soft reset, one block after another: when each is taken, and what it makes of its
block (R16, R54, R87, R136, R137, R154, R169, R170, R179, R183). -/

namespace Sys2Proof.Machine

open Sys2Proof.Safety

/-! ### When a part is taken (R169, R170) -/

/-- A block's part of a reset: nothing without a reset under way or once nothing is left to do, else the block's work. -/
def takePart {α : Type} (reset : Option α) (ended : α → Bool) (s : State) (work : α → State) : State :=
  match reset with
  | some parts => if ended parts then s else work parts
  | none => s

section

variable {c : Instr} {s t : State} {α : Type} {reset : Option α} {parts : α} {ended : α → Bool} {work : α → State}
  (hc : exec c s = .next (takePart reset ended s work))

include hc

theorem exec_part_without (h : reset = none) : exec c s = .next s := by
  subst h
  exact hc

theorem exec_part_ended (h : reset = some parts) (he : ended parts = true) : exec c s = .next s := by
  subst h
  exact hc.trans (congrArg Host.Outcome.next (if_pos he))

theorem exec_part_due (h : reset = some parts) (he : ended parts = false) (hw : work parts = t) : exec c s = .next t := by
  subst h hw
  exact hc.trans (congrArg Host.Outcome.next (if_neg (Bool.eq_false_iff.mp he)))

end

/-- A condition on which a part is due, as one on which nothing is left to do. -/
theorem due_eq_ended {α : Type} (due : Bool) (x y : α) : (if due then x else y) = if !due then y else x := by cases due <;> rfl

/-! ### The parts of a port reset, by their turn (R169) -/

section

variable (p : Port) (s : State)

/-- The state with the parts done of the port's reset replaced. -/
def withPortReset (parts : PortResetParts) : State := { s with portResets := s.portResets.set p (some parts) }

theorem exec_portResetNotices : exec (.portResetNotices p) s = .next (takePart (s.portResets.get p) (·.notices) s fun parts =>
    setQueue (withPortReset p s { parts with notices := true }) p []) := by
  refine congrArg Host.Outcome.next ?_
  cases s.portResets.get p <;> rfl

theorem exec_portResetMarks : exec (.portResetMarks p) s = .next (takePart (s.portResets.get p) (·.marks) s fun parts =>
    { withPortReset p s { parts with marks := true } with table := mapSlots s.table (fun _ sl => unmarkSlot p sl) }) := by
  refine congrArg Host.Outcome.next ?_
  cases s.portResets.get p <;> rfl

theorem exec_portResetLog : exec (.portResetLog p) s = .next (takePart (s.portResets.get p) (·.log) s fun parts =>
    { withPortReset p s { parts with log := true } with log := resetLogPort p s.log }) := by
  refine congrArg Host.Outcome.next ?_
  cases s.portResets.get p <;> rfl

theorem exec_portResetLock : exec (.portResetLock p) s = .next (takePart (s.portResets.get p) (·.lock) s fun parts =>
    resetLockPort p (withPortReset p s { parts with lock := true })) := by
  refine congrArg Host.Outcome.next ?_
  cases s.portResets.get p <;> rfl

theorem exec_portResetWatch : exec (.portResetWatch p) s = .next (takePart (s.portResets.get p) (·.watch) s fun parts =>
    { withPortReset p s { parts with watch := true } with watch := resetWatchPort p s.watch }) := by
  refine congrArg Host.Outcome.next ?_
  cases s.portResets.get p <;> rfl

end

/-! ### What a port reset makes of each block (R87, R137, R154, R179) -/

theorem slotAt_unmarked (t : Table) (p : Port) (n : Nat) : slotAt (mapSlots t fun _ sl => unmarkSlot p sl) n =
    if (slotAt t n).state = .free then slotAt t n
    else { slotAt t n with record := { (slotAt t n).record with marks := (slotAt t n).record.marks.set p (.all 0) } } := by
  by_cases hn : n < 512
  · rw [slotAt_mapSlots _ _ n hn]
    rfl
  · rw [slotAt_ge _ n (Nat.not_lt.mp hn), slotAt_ge _ n (Nat.not_lt.mp hn)]
    rfl

theorem oldestSerial_eq (l : Log) : oldestSerial l =
    match l.records with
    | [] => l.nextSerial
    | r :: _ => r.serial := by
  unfold oldestSerial
  cases l.records <;> rfl

section

variable {p : Port} {s : State}

/-- A port that does not hold the lock leaves the wait list (R179). -/
theorem resetLockPort_other (other : ¬Holds s p) : resetLockPort p s =
    { s with lock := { s.lock with waiters := s.lock.waiters.filter (fun q => q != p) } } :=
  if_neg (mt (holdsLock_iff s p).mp other)

/-- The holder's lock becomes FREE when no port waits for it (R179). -/
theorem resetLockPort_frees (holds : Holds s p) (alone : s.lock.waiters = []) :
    resetLockPort p s = { s with lock := { s.lock with holding := none } } := by
  rw [resetLockPort, if_pos ((holdsLock_iff s p).mpr holds), passLock, alone]

/-- The holder's lock passes to the first waiter, with cause 2 (R173, R179). -/
theorem resetLockPort_passes {q : Port} {later : List Port} (holds : Holds s p) (waiting : s.lock.waiters = q :: later) :
    resetLockPort p s =
      { s with
        lock := { s.lock with
          holding := some { port := q, lease := if s.lock.setting = 0 then none else some s.lock.setting },
          waiters := (q :: later).filter (fun x => x != q) },
        posted := s.posted ++ [sentNotice .lockArbiter q .lockGranted (s.lock.setting + 131072)] } := by
  rw [resetLockPort, if_pos ((holdsLock_iff s p).mpr holds)]
  simp only [passLock, grantLock, waiting]
  rfl

end

theorem resetWatchPort_eq (p : Port) (w : Watch) : resetWatchPort p w =
    { w with
      units := unitsBy (fun u => if (w.units.get u).owner = some p then .free else w.units.get u),
      capture := w.capture.filter (fun c => c.owner != p) } := by
  have kept : captureAfterPortReset p w.capture = w.capture.filter (fun c => c.owner != p) := by
    cases w.capture with
    | none => rfl
    | some c => by_cases own : c.owner = p <;> simp [captureAfterPortReset, Option.filter, own]
  rw [resetWatchPort, kept]
  rfl

/-! ### The parts of a soft reset, by their turn (R170) -/

section

variable (p : Port) (s : State)

/-- The state with the parts done of the soft reset that a port has commanded replaced. -/
def withSoftReset (parts : SoftResetParts) : State := { s with softResets := s.softResets.set p (some parts) }

theorem exec_softResetNotices : exec (.softResetNotices p) s = .next (takePart (s.softResets.get p) (·.notices) s fun parts =>
    { withSoftReset p s { parts with notices := true } with queues := .all [] }) := by
  refine congrArg Host.Outcome.next ?_
  cases s.softResets.get p <;> rfl

theorem exec_softResetLock : exec (.softResetLock p) s = .next (takePart (s.softResets.get p) (·.lock) s fun parts =>
    { withSoftReset p s { parts with lock := true } with lock := { s.lock with holding := none, waiters := [] } }) := by
  refine congrArg Host.Outcome.next ?_
  cases s.softResets.get p <;> rfl

theorem exec_softResetIntake (late : Bool) :
    exec (.softResetIntake p late) s = .next (takePart (s.softResets.get p) (·.intake) s fun parts =>
      { withSoftReset p s { parts with intake := true } with intake := softResetIntake late s.intake }) := by
  refine congrArg Host.Outcome.next ?_
  cases s.softResets.get p <;> rfl

theorem exec_softResetSweep : exec (.softResetSweep p) s = .next (takePart (s.softResets.get p) (·.sweep) s fun parts =>
    { withSoftReset p s { parts with sweep := true } with sweep := none }) := by
  refine congrArg Host.Outcome.next ?_
  cases s.softResets.get p <;> rfl

theorem exec_softResetRating : exec (.softResetRating p) s = .next (takePart (s.softResets.get p) (·.rating) s fun parts =>
    { withSoftReset p s { parts with rating := true } with
      rating := { s.rating with since := 0, sweep := none, skips := 0 } }) := by
  refine congrArg Host.Outcome.next ?_
  cases s.softResets.get p <;> rfl

theorem exec_softResetWatch : exec (.softResetWatch p) s = .next (takePart (s.softResets.get p) (·.watch) s fun parts =>
    { withSoftReset p s { parts with watch := true } with
      watch := { s.watch with units := .all .free, capture := none } }) := by
  refine congrArg Host.Outcome.next ?_
  cases s.softResets.get p <;> rfl

/-- A port takes its part after the Notice Unit's. -/
theorem exec_softResetPort (q : Port) : exec (.softResetPort p q) s =
    .next (takePart (s.softResets.get p) (fun parts => !(parts.notices && !parts.ports.get q)) s fun parts =>
      putPort (withSoftReset p s { parts with ports := parts.ports.set q true }) q
        (softResetAccess (s.ports.get q) (s.queues.get q))) := by
  refine congrArg Host.Outcome.next ?_
  cases s.softResets.get p with
  | none => rfl
  | some parts => exact due_eq_ended ..

/-- The log takes its part after the whole first stage, between accesses' records. -/
theorem exec_softResetLog : exec (.softResetLog p) s =
    .next (takePart (s.softResets.get p) (fun parts => !(firstStageDone parts && !parts.log && s.log.midAccess.isNone)) s
      fun parts => softResetLog p (withSoftReset p s { parts with log := true })) := by
  refine congrArg Host.Outcome.next ?_
  cases s.softResets.get p with
  | none => rfl
  | some parts => exact due_eq_ended ..

/-- The Stream Table's visit comes after the log's part, when the Classifier holds no frame. -/
theorem exec_softResetVisit (upsets : List Nat) : exec (.softResetVisit p upsets) s =
    .next (takePart (s.softResets.get p) (fun parts => !(parts.log && s.classifier.isNone)) s fun _ =>
      withAnswer { visitTable upsets s with softResets := s.softResets.set p none } p (.bare .ok)) := by
  refine congrArg Host.Outcome.next ?_
  cases s.softResets.get p with
  | none => rfl
  | some parts => exact due_eq_ended ..

end

/-! ### What a soft reset makes of the Intake, a port and the log (R16, R136, R170) -/

theorem softResetIntake_eq (late : Bool) (i : Intake) : softResetIntake late i =
    { i with
      queue := [], highMark := .armed, episode := none, frameCount := none,
      counters :=
        { received := 0, admitted := 0, lost := 0, badFrames := 0, malformedArrival := 0,
          malformedClass := if late = true ∧ i.frameCount = some .malformedClass then 1 else 0,
          faultedDiscards := if late = true ∧ i.frameCount = some .faultedDiscard then 1 else 0,
          strayEvictions := 0, gapCount := 0 } } := by
  simp [softResetIntake, softResetCounters, Intake.reset]

theorem softResetAccess_eq (a : Access) (queue : List Notice) : softResetAccess a queue =
    attended { a with
      latches := { noticeOverflow := false, logOverrun := false, captureDone := false, deviceAlert := false }, attn := false }
      queue :=
  evaluateAttn_eq _ queue

/-- The log's part leaves it with SOFT_RESET, which is not URGENT, as its only record (R136). -/
theorem softResetLog_eq (p : Port) (s : State) : softResetLog p s =
    let c := bareRecord s.monitor.cycleCount .softReset false (portNumber p + 256 * s.log.records.length)
    { s with
      log := { s.log with
        records := [{ serial := s.log.nextSerial, condition := c }], nextSerial := serialSucc s.log.nextSerial,
        cursors := .all s.log.nextSerial, overruns := .all 0 },
      posted := s.posted ++ conditionNotices s.log c } := by
  have unalarmed : s.statusEvents ++ alertEvents (plainCondition (cycleNow s) .softReset (removedDetail p s.log))
      = s.statusEvents := List.append_nil _
  rw [softResetLog, appendRecord_empty rfl, unalarmed]
  rfl

/-! ### The Stream Table's visit (R46, R54, R103, R117) -/

section

variable {s : State} {upsets : List Nat} {n : Nat}

/-- A slot as the visit finds it: its parity may have been lost before (notes/assumptions/5). -/
theorem slotAt_upsetSlots (hn : n < 512) : slotAt (upsetSlots s.table upsets) n =
    { slotAt s.table n with parityGood := (slotAt s.table n).parityGood && !upsets.contains n } :=
  slotAt_mapSlots _ _ n hn

theorem slotAt_visitTable (hn : n < 512) : slotAt (visitTable upsets s).table n =
    softResetSlot { slotAt s.table n with parityGood := (slotAt s.table n).parityGood && !upsets.contains n } := by
  rw [← slotAt_upsetSlots hn]
  exact slotAt_mapSlots (upsetSlots s.table upsets) _ n hn

end

section

variable {sl : Slot}

theorem softResetSlot_dead (dead : stateLive sl.state = false) : softResetSlot sl = sl :=
  if_neg (Bool.eq_false_iff.mp dead)

theorem softResetSlot_fails (live : stateLive sl.state = true) (fails : sl.parityGood = false) :
    softResetSlot sl = { sl with state := .faulted, parityGood := false } := by
  rw [softResetSlot, if_pos live, if_neg (Bool.eq_false_iff.mp fails), faultSlot, ← fails]

theorem softResetSlot_remade (live : stateLive sl.state = true) (good : sl.parityGood = true) :
    softResetSlot sl = { sl with state := .defined, record := softResetRecord sl.record } :=
  (if_pos live).trans (if_pos good)

end

/-- The visit hands RECORD_FAULT, detail 7, over for every slot that it faults. -/
theorem visitTable_appends (upsets : List Nat) (s : State) : (visitTable upsets s).appends =
    s.appends ++ (List.range 512).flatMap (fun n =>
      if stateLive (slotAt s.table n).state && !((slotAt s.table n).parityGood && !upsets.contains n) then
        [appendOf .streamTable (slotRecord s.monitor.cycleCount .recordFault true n (slotAt s.table n).tag 7)]
      else []) := by
  refine congrArg (s.appends ++ ·) ?_
  rw [visitFaults, List.flatMap_def, List.flatMap_def]
  refine congrArg List.flatten (List.map_congr_left fun n hn => ?_)
  rw [slotAt_upsetSlots (List.mem_range.mp hn), softResetFault, softResetFaults]
  split <;> rfl

end Sys2Proof.Machine
end

section
/-! SUPPORT. The statements of chapter 09, the Access Ports, RESET and start-up. -/

namespace Sys2Proof.Safety

open Sys2Proof.Machine

/-! ### RESET and start-up (R15, R162, R171) -/

theorem reset_slot_free (n : Nat) : (slotAt State.reset.table n).state = .free := congrArg Slot.state (slotAt_reset n)

/-- Settles O60: after reset every slot is FREE, and lists, queues and counters are empty or 0. -/
theorem resetObeysEveryLaw : Obligations.ResetObeysEveryLaw := by
  have held {n : Nat} {P : Prop} (h : (slotAt State.reset.table n).state ≠ .free) : P := absurd (reset_slot_free n) h
  refine ⟨fun _ => rfl, Nat.zero_le _, timebaseLaw_reset, ⟨fun _ h => held h, fun _ _ h => held h⟩, ?strays,
    fun n h => ?window, fun _ h => held h, ⟨Nat.zero_le _, fun _ n live => held (stateLive_iff.mp live).1⟩,
    (logLaw_iff _).mpr logOk_reset, watchOk_reset, ⟨by decide, rfl⟩, fun p => ?notices, fun p _ => ?attention⟩
  case strays => exact ⟨Nat.zero_le _, List.nodup_nil, fun _ listed => absurd listed List.not_mem_nil⟩
  case window =>
    rw [reset_slot_free] at h
    obtain h | h := h <;> cases h
  case notices => cases p <;> exact Nat.zero_le _
  case attention => cases p <;> rfl

/-- Settles O4: RESET_ASSERT puts the reset state in place, of which each value is read off. -/
theorem resetAssertRestoresDeviceResetValues : Obligations.ResetAssertRestoresDeviceResetValues := by
  intro s
  have slots (n : Nat) : (slotAt Table.reset n).state = .free ∧ (slotAt Table.reset n).parityGood = true := by
    rw [slotAt_reset]
    exact ⟨rfl, rfl⟩
  have marks (p : Port) : Table.reset.markWalks.get p = none := PerPort.get_all ..
  have log (p : Port) : Log.reset.cursors.get p = 1 ∧ Log.reset.overruns.get p = 0 ∧ Log.reset.subscriptions.get p = 0 :=
    ⟨PerPort.get_all .., PerPort.get_all .., PerPort.get_all ..⟩
  have units (u : UnitId) : Watch.reset.units.get u = .free := PerUnit.get_all ..
  refine ⟨_, rfl, rfl, rfl, slots, rfl, rfl, marks, rfl, rfl, rfl, rfl, rfl, rfl, rfl, rfl, rfl, rfl, rfl, rfl, rfl, rfl, log,
    units, rfl, rfl, rfl, rfl, rfl, rfl, rfl, fun p => ?_⟩
  cases p <;> exact ⟨rfl, rfl, rfl, rfl, rfl, rfl, rfl, rfl, rfl, rfl, rfl, rfl, rfl⟩

/-- Settles O5: release and the end of INIT by the start-up state; every event of a block waits for the end of INIT. -/
theorem startUpRunsFromReleaseToInitEnd : Obligations.StartUpRunsFromReleaseToInitEnd := by
  refine ⟨fun s asserted => congrArg Host.Outcome.next (if_pos asserted), fun strobe s initializing => ?ends,
    fun s starting => ?waits⟩
  case ends =>
    refine ⟨_, congrArg Host.Outcome.next (if_pos initializing), rfl, fun p => ?_⟩
    cases p <;> rfl
  case waits =>
    have waits (event : State → State) : Host.Outcome.next (φ := Fault) (ρ := Refusal) (whenRunning event s) = .next s :=
      congrArg Host.Outcome.next (whenRunning_not event s starting)
    exact ⟨fun _ => waits _, waits _, fun _ => waits _, waits _, fun _ => waits _, waits _, waits _, fun _ => waits _, waits _,
      waits _, fun _ => waits _, waits _, fun _ => waits _, fun _ => waits _, fun _ _ => waits _, fun _ => waits _,
      fun _ => waits _, fun _ _ => waits _⟩

/-! ### Requests (R155 to R157, R159, R160, R162) -/

/-- Settles O54: the bytes by the port's state and by the frame that they complete, and the byte shifted out by the state. -/
theorem requestsAreReceivedAndChecked : Obligations.RequestsAreReceivedAndChecked := by
  refine ⟨fun s p bytes sent asserted =>
      ⟨congrArg Host.Outcome.next (if_pos asserted), congrArg Host.Outcome.next (if_pos asserted)⟩,
    fun a sent => ?shiftsOut, fun s p bytes released => ?receives⟩
  case shiftsOut =>
    refine ⟨fun refused => if_pos refused, fun accepted => ⟨fun executing => ?_, fun idle => ?_, fun framed => ?_⟩⟩
    · rw [dataOut, if_neg accepted, executing]
    · rw [dataOut, if_neg accepted, idle]
    · have shown : dataOut a sent = (a.response[sent]?).getD 0xff := by
        obtain answering | init := framed
        · rw [dataOut, if_neg accepted, answering]
        · rw [dataOut, if_neg accepted, init]
      exact ⟨fun b sends => by rw [shown, sends]; rfl, fun past => by rw [shown, List.getElem?_eq_none past]; rfl⟩
  case receives =>
    intro a got framed refused
    have receives {b : Access} (h : receiveBytes bytes a = b) : exec (.requestComplete p bytes) s = .next (putPort s p b) :=
      h ▸ exec_requestComplete released p bytes
    have ignores (h : receiveBytes bytes a = a) : exec (.requestComplete p bytes) s = .next s :=
      (receives h).trans (congrArg Host.Outcome.next (putPort_self s p))
    refine ⟨fun busy => ignores (receiveBytes_ignored busy), fun idle accepted => ?idle,
      fun init completed => ignores (receiveBytes_init_answered init completed), fun init accepted unanswered => ?init⟩
    case idle =>
      have receives {b : Access} (h : receiveIdle bytes a = b) : exec (.requestComplete p bytes) s = .next (putPort s p b) :=
        receives ((receiveBytes_idle idle accepted).trans h)
      refine ⟨fun part => receives (receiveIdle_partial (completeFrame_partial part)), fun begun out => ?_,
        fun len code number check args extra whole counted short => ?_⟩
      · obtain ⟨len, bad, complete⟩ := completeFrame_badLength begun out
        exact receives (receiveIdle_refused complete (frameRefusal_badLength bad))
      · have complete := whole ▸ completeFrame_whole (number := number) (check := check) (code := code) counted short extra
        intro sum
        refine ⟨fun wrong => ?_, fun zero unknown => ?_, fun zero known => ?_⟩
        · exact receives ((receiveIdle_refused complete (frameRefusal_badSum wrong)).trans (by rw [frameRequest_whole]; rfl))
        · have refusal := (frameRefusal_whole counted short zero).trans
            (if_neg (mt (codeKnown_iff code).mp (not_exists.mpr unknown)))
          exact receives ((receiveIdle_refused complete refusal).trans (by rw [frameRequest_whole]; rfl))
        · have passes := (frameRefusal_whole counted short zero).trans (if_pos ((codeKnown_iff code).mpr known))
          exact receives ((receiveIdle_accepted complete passes).trans (by rw [frameRequest_whole]))
    case init =>
      have receives {b : Access} (h : receiveInit bytes a = b) : exec (.requestComplete p bytes) s = .next (putPort s p b) :=
        receives ((receiveBytes_init init accepted).trans h)
      refine ⟨fun part => receives (receiveInit_partial unanswered (completeFrame_partial part)), fun begun full => ?_⟩
      obtain ⟨frame, complete⟩ := completeFrame_complete begun full
      exact receives (receiveInit_complete unanswered complete)

/-! ### Answers (R157 to R159, R161, R163) -/

/-- Settles O55: BLOCK_ANSWER by what the answer waits for and by select, the release of select by the port's state. -/
theorem answersAreDeliveredOrCut : Obligations.AnswersAreDeliveredOrCut := by
  intro s p a ended
  have running {sent : Nat} {b : Access} (hr : s.startup = .running) (h : releaseSelect true sent a = b) :
      exec (.selectRelease p sent) s = .next (putPort s p b) := by
    subst h
    rw [exec_selectRelease (by simp [hr]), hr]
    rfl
  refine ⟨fun ans r executing formed inHand => ?answers, fun sent r hr answering isOpen inHand => running hr ?answered,
    fun sent hr executing isOpen => running hr ?executing, fun sent hr idle isOpen => running hr ?idle,
    fun sent released init isOpen => ?init, fun sent hr refused => running hr (releaseSelect_refused refused),
    fun executing released => ?refuses⟩
  case answers =>
    intro waits body ready
    have waits_iff : (partsOutstanding (s.portResets.get p) || appendsOutstanding s p) = true ↔ waits := by
      rw [Bool.or_eq_true, partsOutstanding_iff, appendsOutstanding_iff, or_comm]
    have gives {b : Access} (given : ¬waits) (h : deliverAnswer a ans = b) :
        exec (.blockAnswer p) s = .next (putPort ready p b) :=
      h ▸ congrArg Host.Outcome.next (answerPort_gives executing formed (Bool.eq_false_iff.mpr (mt waits_iff.mp given)))
    refine ⟨fun hw => congrArg Host.Outcome.next (answerPort_waits executing formed (waits_iff.mpr hw)),
      fun given isOpen => gives given (if_pos isOpen), fun given closed => gives given ?_, sumBytes_closed body⟩
    exact (if_neg closed).trans (endExchange_eq inHand _ _)
  case answered =>
    rw [releaseSelect_open isOpen, releasePeriod, answering]
    exact endExchange_eq (a := { a with select := .released }) inHand _ _
  case executing => rw [releaseSelect_open isOpen, releasePeriod, executing]
  case idle => rw [releaseSelect_open isOpen, releasePeriod, idle]
  case init =>
    rw [exec_selectRelease released, releaseSelect_open isOpen, releasePeriod, init]
    simp only [beq_iff_eq]
  case refuses => exact congrArg (fun b => Host.Outcome.next (putPort s p b)) (if_pos ⟨executing, released⟩)

/-! ### Status and attention (R164 to R168) -/

/-- Settles O56: each command by its answer on the port as it leaves it, and the status source set event by the latch. -/
theorem statusAndAttentionAct : Obligations.StatusAndAttentionAct := by
  intro s p a q pending bits put
  have status (l : Latches) : leBytes 1 (statusBits l q).toNat = leBytes 1 (pending + bits l) := by rw [statusBits_toNat]
  refine ⟨fun hi => ?identify, fun hi => ?read, fun mask hi => ?clear, fun mask hi => ?set, fun args wrong => ?wrong,
    fun hi => ?rearm, fun l before after hr waiting others => ?source⟩
  case identify => exact congrArg Host.Outcome.next (serve_inHand_answer hi .identify rfl _ _ rfl)
  case read =>
    refine congrArg Host.Outcome.next (serve_inHand_answer hi .readStatus rfl _ _ ?_)
    rw [noArgs_nil, readStatus, statusOf, taken_port, taken_queues, ← status, exchangeBytes_eq]
    rfl
  case clear =>
    intro l
    refine congrArg Host.Outcome.next (serve_answered (t := putPort s p { a with latches := l }) hi .clearStatus rfl ?_)
    rw [clearStatus_mask, latchesClear_fiveBits, taken_port, taken_queues, ← status, ← putPort_markTaken]
    rfl
  case set =>
    intro b
    refine congrArg Host.Outcome.next (serve_answered (t := putPort s p b) hi .setAttention rfl ?_)
    rw [setAttention_mask, taken_port, taken_queues, ← putPort_markTaken]
    rfl
  case wrong =>
    have outOfRange := mt (fiveBits_iff args).mp (not_not_intro wrong)
    exact ⟨fun hi => congrArg Host.Outcome.next (serve_inHand_answer hi .clearStatus rfl _ _ (if_neg outOfRange)),
      fun hi => congrArg Host.Outcome.next (serve_inHand_answer hi .setAttention rfl _ _ (if_neg outOfRange))⟩
  case rearm =>
    have attn : ((taken s p).ports.get p).attn = a.attn := by
      rw [taken_port]
      rfl
    refine ⟨fun asserted => congrArg Host.Outcome.next
        (serve_answered (t := putPort s p { a with attn := enabledSource a q }) hi .rearmAttention rfl ?_),
      fun quiet => congrArg Host.Outcome.next (serve_inHand_answer hi .rearmAttention rfl _ _
        (rearmAttention_quiet p _ (attn.trans quiet)))⟩
    rw [noArgs_nil, rearmAttention_asserted p _ (attn.trans asserted), taken_port, taken_queues, ← putPort_markTaken]
    rfl
  case source =>
    have oldest := waiting ▸ takeStatusEvent_eq { port := p, latch := l } before after others
    have sets : takeStatusSource p l s = withLatch { s with statusEvents := before ++ after } p l := by
      rw [takeStatusSource, oldest, ← raiseLatch_eq]
    exact congrArg Host.Outcome.next ((whenRunning_running _ s hr).trans sets)

/-! ### PORT-RESET (R87, R137, R154, R169, R179, R183) -/

/-- Settles O57: PORT-RESET's own part, and each block's part by whether it is due. -/
theorem portResetClearsThePortsShare : Obligations.PortResetClearsThePortsShare := by
  refine ⟨fun s p hi => ?begins, fun s p unreset => ?idle, fun s p parts under => ?parts⟩
  case begins =>
    intro begun
    refine congrArg Host.Outcome.next (serve_answered hi .portReset rfl ?_)
    rw [noArgs_nil, portReset, taken_port, ← putPort_markTaken]
    rfl
  case idle =>
    exact ⟨exec_part_without (exec_portResetNotices p s) unreset, exec_part_without (exec_portResetMarks p s) unreset,
      exec_part_without (exec_portResetLog p s) unreset, exec_part_without (exec_portResetLock p s) unreset,
      exec_part_without (exec_portResetWatch p s) unreset⟩
  case parts =>
    intro with_
    refine ⟨fun due => exec_part_due (exec_portResetNotices p s) under due rfl,
      fun due => ⟨_, exec_part_due (exec_portResetMarks p s) under due rfl, rfl, slotAt_unmarked s.table p⟩,
      fun due => exec_part_due (exec_portResetLog p s) under due ?log,
      fun due => ⟨fun other => exec_part_due (exec_portResetLock p s) under due (resetLockPort_other other),
        fun holds alone => exec_part_due (exec_portResetLock p s) under due (resetLockPort_frees holds alone),
        fun q later holds waiting => exec_part_due (exec_portResetLock p s) under due (resetLockPort_passes holds waiting)⟩,
      fun due => exec_part_due (exec_portResetWatch p s) under due ?watch,
      exec_part_ended (exec_portResetNotices p s) under, exec_part_ended (exec_portResetMarks p s) under,
      exec_part_ended (exec_portResetLog p s) under, exec_part_ended (exec_portResetLock p s) under,
      exec_part_ended (exec_portResetWatch p s) under⟩
    case log =>
      rw [resetLogPort, oldestSerial_eq]
      rfl
    case watch =>
      rw [resetWatchPort_eq]
      rfl

/-! ### SOFT-RESET (R16, R54, R103, R117, R136, R153, R170, R179, R183) -/

/-- Settles O58: SOFT-RESET begins, and each stage's parts by whether they are due, done or waiting for their turn. -/
theorem softResetRunsInThreeStages : Obligations.SoftResetRunsInThreeStages := by
  refine ⟨fun s p holds hi => ?begins, fun s p parts under => ?parts⟩
  case begins =>
    intro begun
    refine congrArg Host.Outcome.next ?_
    rw [serve_inHand hi .softReset rfl, underLock_holds _ _ _ _ (holdsLock_taken holds)]
    rfl
  case parts =>
    intro with_
    refine ⟨fun due => exec_part_due (exec_softResetNotices p s) under due rfl,
      fun due => exec_part_due (exec_softResetLock p s) under due rfl,
      fun late due => exec_part_due (exec_softResetIntake p s late) under due ?intake,
      fun due => exec_part_due (exec_softResetSweep p s) under due rfl,
      fun due => exec_part_due (exec_softResetRating p s) under due rfl,
      fun due => exec_part_due (exec_softResetWatch p s) under due rfl,
      exec_part_ended (exec_softResetNotices p s) under, exec_part_ended (exec_softResetLock p s) under,
      fun late => exec_part_ended (exec_softResetIntake p s late) under, exec_part_ended (exec_softResetSweep p s) under,
      exec_part_ended (exec_softResetRating p s) under, exec_part_ended (exec_softResetWatch p s) under,
      fun q early => exec_part_ended (exec_softResetPort p s q) under ?portWaits,
      fun early => exec_part_ended (exec_softResetLog p s) under ?logWaits,
      fun upsets early => exec_part_ended (exec_softResetVisit p s upsets) under ?visitWaits, fun u intakeDone => ?frames,
      fun q emptied due => exec_part_due (exec_softResetPort p s q) under ?portDue ?port, fun first due between => ?log,
      fun upsets stored idle => ?visit⟩
    case intake =>
      rw [softResetIntake_eq]
      rfl
    case portWaits => obtain h | h := early <;> simp [h]
    case logWaits =>
      obtain h | h | h := early
      · simp [Bool.eq_false_iff.mpr (mt (firstStageDone_iff parts).mp h)]
      · simp [h]
      · simp [Option.isNone_eq_false_iff.mpr (Option.isSome_iff_ne_none.mpr h)]
    case visitWaits =>
      obtain h | h := early
      · simp [h]
      · simp [Option.isNone_eq_false_iff.mpr (Option.isSome_iff_ne_none.mpr h)]
    case frames =>
      have held : framesHeld s = true := (framesHeld_iff s).mpr ⟨p, parts, under, intakeDone⟩
      exact congrArg Host.Outcome.next (whenRunning_eq_self (takeFrame_waits u s (.inr held)))
    case portDue => simp [emptied, due]
    case port =>
      rw [softResetAccess_eq]
      rfl
    case log =>
      intro c subscribers
      refine exec_part_due (exec_softResetLog p s) under ?_ ?_
      · simp [(firstStageDone_iff parts).mpr first, due, between]
      · rw [softResetLog_eq]
        rfl
    case visit =>
      refine ⟨_, exec_part_due (exec_softResetVisit p s upsets) under ?_ rfl, rfl, fun n hn => ?_, visitTable_appends upsets s⟩
      · simp [stored, idle]
      · intro sl good
        have visited := slotAt_visitTable (s := s) (upsets := upsets) hn
        refine ⟨fun dead => visited.trans (softResetSlot_dead dead),
          fun live fails => visited.trans (softResetSlot_fails live fails), fun live passes => visited.trans ?_⟩
        have kept : good = sl.parityGood := passes.trans ((Bool.and_eq_true_iff.mp passes).1).symm
        refine (softResetSlot_remade (sl := { sl with parityGood := good }) live passes).trans ?_
        rw [kept]
        rfl

end Sys2Proof.Safety
end

section
/-! SUPPORT. The laws of the tally lock, of the notice queues and of ATTN, one operation after another (R165, R172, R180). -/

namespace Sys2Proof.Safety

open Sys2Proof.Machine

/-! ### The law of the tally lock (R172) -/

/-- What R172 says of a Lock Arbiter. -/
def LockOk (l : Lock) : Prop :=
  l.setting ≤ 65535
    ∧ match l.holding with
      | none => l.waiters = []
      | some h => l.waiters.Nodup ∧ h.port ∉ l.waiters ∧ l.waiters.length ≤ 2 ∧ ∀ n, h.lease = some n → 1 ≤ n ∧ n ≤ 65535

theorem lockLaw_iff (s : State) : LockLaw s ↔ LockOk s.lock := Iff.rfl

theorem lockOk_reset : LockOk .reset := ⟨by decide, rfl⟩

/-- No list of distinct ports has more than three. -/
theorem length_le_of_nodup_ports {ports : List Port} (distinct : ports.Nodup) : ports.length ≤ 3 :=
  distinct.length_le_of_subset (l₂ := allPorts) fun p _ => by cases p <;> decide

theorem leaseGranted_range {setting n : Nat} (range : setting ≤ 65535) (h : leaseGranted setting = some n) :
    1 ≤ n ∧ n ≤ 65535 := by
  unfold leaseGranted at h
  split at h
  · cases h
  · cases h
    omega

section

variable {l : Lock} (ok : LockOk l)

include ok

theorem LockOk.waiters : l.waiters.Nodup ∧ l.waiters.length ≤ 2 := by
  obtain ⟨-, held⟩ := ok
  split at held
  · rw [held]
    exact ⟨List.nodup_nil, Nat.zero_le 2⟩
  · obtain ⟨distinct, -, few, -⟩ := held
    exact ⟨distinct, few⟩

/-- A port to which the lock is granted leaves the wait list (R173). -/
theorem LockOk.grantLock (p : Port) : LockOk (grantLock l p) := by
  obtain ⟨distinct, few⟩ := ok.waiters
  have gone : p ∉ l.waiters.filter (· != p) := by simp
  exact ⟨ok.1, distinct.sublist List.filter_sublist, gone, Nat.le_trans (List.length_filter_le ..) few,
    fun n => leaseGranted_range ok.1⟩

/-- A holder's lease in its range may be replaced (R174, R176). -/
theorem LockOk.withLease {h : Holding} (held : l.holding = some h) {lease : Option Nat}
    (range : ∀ n, lease = some n → 1 ≤ n ∧ n ≤ 65535) : LockOk { l with holding := some { h with lease := lease } } := by
  obtain ⟨setting, waits⟩ := ok
  rw [held] at waits
  obtain ⟨distinct, apart, few, -⟩ := waits
  exact ⟨setting, distinct, apart, few, range⟩

/-- A port that does not hold the lock may enter the wait list once (R174). -/
theorem LockOk.enter {h : Holding} (held : l.holding = some h) {p : Port} (other : h.port ≠ p) :
    LockOk { l with waiters := if l.waiters.contains p then l.waiters else l.waiters ++ [p] } := by
  split
  · exact ok
  · next absent =>
    obtain ⟨setting, waits⟩ := ok
    rw [held] at waits
    obtain ⟨distinct, apart, -, range⟩ := waits
    have absent : p ∉ l.waiters := by simpa using absent
    have entered : (l.waiters ++ [p]).Nodup := (List.nodup_cons.mpr ⟨absent, distinct⟩).perm (List.perm_append_comm (l₁ := [p]))
    have outside : h.port ∉ l.waiters ++ [p] := by simp [apart, other]
    have few := length_le_of_nodup_ports (List.nodup_cons.mpr ⟨outside, entered⟩)
    unfold LockOk
    dsimp only
    rw [held]
    exact ⟨setting, entered, outside, Nat.le_of_succ_le_succ few, range⟩

/-- A port may leave the wait list (R175, R179). -/
theorem LockOk.leave (p : Port) : LockOk { l with waiters := l.waiters.filter (· != p) } := by
  obtain ⟨setting, held⟩ := ok
  unfold LockOk
  dsimp only
  refine ⟨setting, ?_⟩
  split
  · next free =>
    rw [free] at held
    rw [held]
    rfl
  · next h holding =>
    rw [holding] at held
    obtain ⟨distinct, apart, few, range⟩ := held
    exact ⟨distinct.sublist List.filter_sublist, fun waits => apart (List.mem_filter.mp waits).1,
      Nat.le_trans (List.length_filter_le ..) few, range⟩

/-- SET-LEASE replaces the setting and the holder's lease (R178). -/
theorem LockOk.withSetting {setting : Nat} (range : setting ≤ 65535) :
    LockOk { l with setting := setting, holding := l.holding.map (fun h => { h with lease := leaseGranted setting }) } := by
  obtain ⟨-, held⟩ := ok
  refine ⟨range, ?_⟩
  dsimp only
  split at held
  · next free =>
    rw [free]
    exact held
  · next h holding =>
    rw [holding]
    obtain ⟨distinct, apart, few, -⟩ := held
    exact ⟨distinct, apart, few, fun n => leaseGranted_range range⟩

end

section

variable {s : State} (ok : LockOk s.lock)

include ok

/-- A pulse adds at most a cycle event for the Lock Arbiter to take (R19). -/
theorem takePulse_keeps_lockOk (dt : Nat) : LockOk (takePulse dt s).lock := by
  unfold takePulse pulseAcquiring pulseLocked pulseHoldover
  dsimp only
  repeat' split
  all_goals exact ok

theorem takeExpiry_keeps_lockOk : LockOk (takeExpiry s).lock := by
  unfold takeExpiry expireLocked expireHoldover endHoldoverAtLimit
  repeat' split
  all_goals exact ok

theorem passLock_keeps_lockOk (cause : PassCause) : LockOk (passLock cause s).lock := by
  unfold passLock
  split
  · next alone => exact ⟨ok.1, alone⟩
  · exact ok.grantLock _

theorem countLease_keeps_lockOk : LockOk (countLease s).lock := by
  unfold countLease
  split
  · exact ok
  · next h held =>
    split
    · exact ok
    · next n lease =>
      split
      · next above =>
        have range : 1 ≤ n ∧ n ≤ 65535 := by
          obtain ⟨-, waits⟩ := ok
          rw [held] at waits
          obtain ⟨-, -, -, range⟩ := waits
          exact range n lease
        refine ok.withLease held fun m hm => ?_
        cases hm
        omega
      · exact passLock_keeps_lockOk (s := post s ..) ok .expiry

theorem takeLockEvent_keeps_lockOk : LockOk (takeLockEvent s).lock := by
  unfold takeLockEvent
  split
  · exact ok
  · next k _ => exact countLease_keeps_lockOk (s := { s with lock := { s.lock with events := k } }) ok

theorem claimLock_keeps_lockOk (p : Port) (args : List Byte) : LockOk (claimLock p args s).1.lock := by
  unfold claimLock claimHeld
  split
  · split
    · exact ok.grantLock p
    · next h held =>
      split
      · exact ok.withLease held fun n => leaseGranted_range ok.1
      · next other =>
        split
        · exact ok
        · exact ok.enter held other
  · exact ok

theorem resetLockPort_keeps_lockOk (p : Port) : LockOk (resetLockPort p s).lock := by
  unfold resetLockPort
  split
  · exact passLock_keeps_lockOk ok .portReset
  · exact ok.leave p

theorem releaseLock_keeps_lockOk (p : Port) : LockOk (releaseLock p s).1.lock := by
  unfold releaseLock
  split
  · exact passLock_keeps_lockOk ok .release
  · split
    · exact ok.leave p
    · exact ok

theorem setLease_keeps_lockOk (args : List Byte) : LockOk (setLease args s).1.lock := by
  unfold setLease
  split
  · exact ok.withSetting (Nat.le_of_lt_succ (fieldAt_lt args 0 2))
  · exact ok

/-- Every command keeps the law: outside RESET, the cycle events and the rows of chapter 10 none touches the Lock Arbiter. -/
theorem exec_keeps_lockOk (c : Instr) : ∃ t, exec c s = .next t ∧ LockOk t.lock := by
  have port (p : Port) (t : State) (a : Access) (ht : LockOk t.lock) : LockOk (putPort t p a).lock := ht
  cases hc : (touches c).lock with
  | false =>
    obtain ⟨t, ht, within⟩ := exec_within c s
    exact ⟨t, ht, within.lock hc ▸ ok⟩
  | true =>
    cases c with
    | resetAssert => exact ⟨_, rfl, lockOk_reset⟩
    | resetRelease =>
      refine ⟨_, rfl, ?_⟩
      split
      · exact lockOk_reset
      · exact ok
    -- a cycle event on its way to the Lock Arbiter
    | lineCyclePulse dt =>
      exact ⟨_, rfl, whenRunning_keeps (fun t => LockOk t.lock) _ s (fun _ ht => takePulse_keeps_lockOk ht dt) ok⟩
    | timerExpiry => exact ⟨_, rfl, whenRunning_keeps (fun t => LockOk t.lock) _ s (fun _ ht => takeExpiry_keeps_lockOk ht) ok⟩
    -- the Lock Arbiter's own rows
    | lockCycleEvent =>
      exact ⟨_, rfl, whenRunning_keeps (fun t => LockOk t.lock) _ s (fun _ ht => takeLockEvent_keeps_lockOk ht) ok⟩
    | leaseExpiry =>
      refine ⟨_, rfl, whenRunning_keeps (fun t => LockOk t.lock) _ s (fun t ht => ?_) ok⟩
      split
      · exact takeLockEvent_keeps_lockOk ht
      · exact ht
    | portResetLock p =>
      refine ⟨_, rfl, ?_⟩
      split
      · next parts _ =>
        split
        · exact ok
        · exact resetLockPort_keeps_lockOk (s := withPortReset p s { parts with lock := true }) ok p
      · exact ok
    | softResetLock issuer =>
      refine ⟨_, rfl, ?_⟩
      split
      · split
        · exact ok
        · exact ⟨ok.1, rfl⟩
      · exact ok
    | claimLock p =>
      exact ⟨_, rfl, serve_keeps (fun t => LockOk t.lock) _ p _ s (port p) (fun args _ ht => claimLock_keeps_lockOk ht p args) ok⟩
    | releaseLock p =>
      exact ⟨_, rfl, serve_keeps (fun t => LockOk t.lock) _ p _ s (port p) (fun args t ht =>
        noArgs_keeps (fun t => LockOk t.lock) _ args t (fun _ ht => releaseLock_keeps_lockOk ht p) ht) ok⟩
    | setLease p =>
      exact ⟨_, rfl, serve_keeps (fun t => LockOk t.lock) _ p _ s (port p) (fun args t ht =>
        underLock_keeps (fun t => LockOk t.lock) p _ args t (fun args _ ht => setLease_keeps_lockOk ht args) ht) ok⟩
    | _ => cases hc

end

/-! ### The law of the notice queues (R180) -/

section

variable {s : State} (law : NoticeLaw s)

include law

/-- A queue may be replaced by one of at most 15 notices. -/
theorem noticeLaw_setQueue (p : Port) {queue : List Notice} (few : queue.length ≤ 15) : NoticeLaw (setQueue s p queue) := by
  intro q
  rw [setQueue_queues, PerPort.get_set]
  split
  · exact few
  · exact law q

/-- A notice is placed in a queue with room only (R180). -/
theorem noticeLaw_placeNotice {p : Port} (room : queueHasRoom s p = true) (n : Notice) : NoticeLaw (placeNotice s p n) := by
  have below := (queueHasRoom_iff s p).mp room
  exact noticeLaw_setQueue law p (queue := s.queues.get p ++ [n]) (by rw [List.length_append]; exact below)

theorem takeDeviceNotice_keeps_noticeLaw (src : NoticeSource) : NoticeLaw (takeDeviceNotice src s) := by
  unfold takeDeviceNotice placeDeviceNotice
  split
  · exact law
  · next n rest _ =>
    split
    · next room => exact noticeLaw_placeNotice (s := { s with posted := rest }) law room n.notice
    · exact law

/-- A NOTE is placed in the queues of distinct ports, each with room (R181). -/
theorem noticeLaw_placeNotices (n : Notice) {ports : List Port} (distinct : ports.Nodup)
    (room : ∀ q ∈ ports, queueHasRoom s q = true) : NoticeLaw (ports.foldl (fun t q => placeNotice t q n) s) := by
  induction ports generalizing s with
  | nil => exact law
  | cons q rest ih =>
    obtain ⟨first, distinct⟩ := List.nodup_cons.mp distinct
    refine ih (noticeLaw_placeNotice law (room q List.mem_cons_self) n) distinct fun r hr => ?_
    have other : r ≠ q := fun same => first (same ▸ hr)
    have kept : (placeNotice s q n).queues.get r = s.queues.get r := PerPort.get_set_other _ _ _ _ other
    rw [queueHasRoom, kept]
    exact room r (List.mem_cons_of_mem q hr)

theorem postNote_keeps_noticeLaw (p : Port) (args : List Byte) : NoticeLaw (postNote p args s).1 := by
  unfold postNote postToOne postToAll
  dsimp only
  split
  · split
    · split
      · next room => exact noticeLaw_placeNotice law room _
      · exact law
    · have distinct : allPorts.Nodup := by decide
      refine noticeLaw_placeNotices law _ (distinct.sublist List.filter_sublist) fun q hq => ?_
      exact (Bool.and_eq_true_iff.mp (List.mem_filter.mp hq).2).2
  · exact law

theorem takeNotice_keeps_noticeLaw (p : Port) : NoticeLaw (takeNotice p s).1 := by
  unfold takeNotice
  split
  · exact law
  · next n rest held =>
    have few := law p
    rw [held] at few
    exact noticeLaw_setQueue law p (Nat.le_of_succ_le few)

theorem flushNotices_keeps_noticeLaw (p : Port) : NoticeLaw (flushNotices p s).1 := by
  unfold flushNotices
  split
  · exact law
  · exact noticeLaw_setQueue law p (Nat.zero_le 15)

/-- Every command keeps the law: outside RESET and the rows of the Notice Unit none touches a queue. -/
theorem exec_keeps_noticeLaw (c : Instr) : ∃ t, exec c s = .next t ∧ NoticeLaw t := by
  have port (p : Port) (t : State) (a : Access) (ht : NoticeLaw t) : NoticeLaw (putPort t p a) := ht
  have emptied (t : State) (h : t.queues = .all []) : NoticeLaw t := fun p => by rw [h, PerPort.get_all]; exact Nat.zero_le 15
  cases hc : (touches c).queues with
  | false =>
    obtain ⟨t, ht, within⟩ := exec_within c s
    exact ⟨t, ht, fun p => within.queues hc ▸ law p⟩
  | true =>
    cases c with
    | resetAssert => exact ⟨_, rfl, emptied _ rfl⟩
    | resetRelease =>
      refine ⟨_, rfl, ?_⟩
      split
      · exact emptied _ rfl
      · exact law
    | noticePlace src =>
      exact ⟨_, rfl, whenRunning_keeps NoticeLaw _ s (fun _ ht => takeDeviceNotice_keeps_noticeLaw ht src) law⟩
    | portResetNotices p =>
      refine ⟨_, rfl, ?_⟩
      split
      · next parts _ =>
        split
        · exact law
        · exact noticeLaw_setQueue (s := withPortReset p s { parts with notices := true }) law p (Nat.zero_le 15)
      · exact law
    | softResetNotices issuer =>
      refine ⟨_, rfl, ?_⟩
      split
      · split
        · exact law
        · exact emptied _ rfl
      · exact law
    | postNote p => exact ⟨_, rfl, serve_keeps NoticeLaw _ p _ s (port p) (fun args _ ht => postNote_keeps_noticeLaw ht p args) law⟩
    | takeNotice p =>
      exact ⟨_, rfl, serve_keeps NoticeLaw _ p _ s (port p) (fun args t ht =>
        noArgs_keeps NoticeLaw _ args t (fun _ ht => takeNotice_keeps_noticeLaw ht p) ht) law⟩
    | flushNotices p =>
      exact ⟨_, rfl, serve_keeps NoticeLaw _ p _ s (port p) (fun args t ht =>
        noArgs_keeps NoticeLaw _ args t (fun _ ht => flushNotices_keeps_noticeLaw ht p) ht) law⟩
    | _ => cases hc

end

end Sys2Proof.Safety
end

section
/-! SUPPORT. The status sources and ATTN of every port through every command (R164 to R166, R180). -/

namespace Sys2Proof.Safety

open Sys2Proof.Machine

/-! ### Work that leaves every port and every queue whole -/

/-- A block's work on a request leaves the ports and the queues whole. -/
def LeavesPorts (f : State → Served) : Prop := ∀ s, (f s).1.ports = s.ports ∧ (f s).1.queues = s.queues

theorem LeavesPorts.underLock {f : List Byte → State → Served} (h : ∀ args, LeavesPorts (f args)) (p : Port) (args : List Byte) :
    LeavesPorts (underLock p f args) := by
  intro s
  exact underLock_keeps (fun t => t.ports = s.ports ∧ t.queues = s.queues) p f args s
    (fun args t kept => ⟨(h args t).1.trans kept.1, (h args t).2.trans kept.2⟩) ⟨rfl, rfl⟩

theorem LeavesPorts.noArgs {f : State → Served} (h : LeavesPorts f) (args : List Byte) : LeavesPorts (noArgs f args) := by
  intro s
  exact noArgs_keeps (fun t => t.ports = s.ports ∧ t.queues = s.queues) f args s
    (fun t kept => ⟨(h t).1.trans kept.1, (h t).2.trans kept.2⟩) ⟨rfl, rfl⟩

theorem leavesPorts_onRecord (n : Nat) (upset : Bool) {f : Slot → State → Served} (h : ∀ sl, LeavesPorts (f sl)) :
    LeavesPorts (onRecord n upset f) := by
  intro s
  unfold onRecord
  dsimp only
  split
  · exact ⟨rfl, rfl⟩
  split
  · exact ⟨rfl, rfl⟩
  split
  · exact h _ _
  · exact ⟨rfl, rfl⟩

section

variable (p : Port) (args : List Byte) (upset : Bool)

theorem leavesPorts_setTimebase : LeavesPorts (setTimebase p args) := by
  intro s
  unfold setTimebase
  split <;> exact ⟨rfl, rfl⟩

theorem leavesPorts_defineStream : LeavesPorts (defineStream p args) := by
  intro s
  unfold defineStream
  repeat' split
  all_goals exact ⟨rfl, rfl⟩

theorem leavesPorts_redefineStream : LeavesPorts (redefineStream upset args) := by
  intro s
  unfold redefineStream
  split
  · exact ⟨rfl, rfl⟩
  · refine leavesPorts_onRecord _ _ (fun sl t => ?_) s
    unfold redefineSlot
    split <;> exact ⟨rfl, rfl⟩

theorem leavesPorts_retireStream : LeavesPorts (retireStream p args) := by
  intro s
  unfold retireStream
  dsimp only
  repeat' split
  all_goals exact ⟨rfl, rfl⟩

theorem leavesPorts_readDefinition : LeavesPorts (readDefinition upset args) := by
  intro s
  unfold readDefinition
  split
  · exact ⟨rfl, rfl⟩
  · exact leavesPorts_onRecord _ _ (fun _ _ => ⟨rfl, rfl⟩) s

theorem leavesPorts_readWindow : LeavesPorts (readWindow upset args) := by
  intro s
  unfold readWindow
  split
  · exact ⟨rfl, rfl⟩
  · exact leavesPorts_onRecord _ _ (fun _ _ => ⟨rfl, rfl⟩) s

theorem leavesPorts_listStreams : LeavesPorts (listStreams args) := by
  intro s
  unfold listStreams
  dsimp only
  split <;> exact ⟨rfl, rfl⟩

theorem leavesPorts_readStrays : LeavesPorts (readStrays args) := by
  intro s
  unfold readStrays
  dsimp only
  split <;> exact ⟨rfl, rfl⟩

theorem leavesPorts_startMark : LeavesPorts (startMark p args) := by
  intro s
  unfold startMark
  split <;> exact ⟨rfl, rfl⟩

theorem leavesPorts_readSheet : LeavesPorts (readSheet p upset args) := by
  intro s
  unfold readSheet
  dsimp only
  split
  · exact leavesPorts_onRecord _ _ (fun _ _ => ⟨rfl, rfl⟩) s
  · exact ⟨rfl, rfl⟩

theorem leavesPorts_startSweep (kind : SweepKind) : LeavesPorts (startSweep kind p args) := by
  intro s
  unfold startSweep
  repeat' split
  all_goals exact ⟨rfl, rfl⟩

theorem leavesPorts_abortSweep : LeavesPorts (abortSweep p) := by
  intro s
  unfold abortSweep
  repeat' split
  all_goals exact ⟨rfl, rfl⟩

theorem leavesPorts_setGrading : LeavesPorts (setGrading upset args) := by
  intro s
  unfold setGrading
  split
  · exact ⟨rfl, rfl⟩
  · exact leavesPorts_onRecord _ _ (fun _ _ => ⟨rfl, rfl⟩) s

theorem leavesPorts_setRating : LeavesPorts (setRating args) := by
  intro s
  unfold setRating
  split <;> exact ⟨rfl, rfl⟩

theorem leavesPorts_readGrades : LeavesPorts (readGrades upset args) := by
  intro s
  unfold readGrades
  split
  · exact ⟨rfl, rfl⟩
  · exact leavesPorts_onRecord _ _ (fun _ _ => ⟨rfl, rfl⟩) s

theorem leavesPorts_readLog : LeavesPorts (readLog p args) := by
  intro s
  unfold readLog
  dsimp only
  repeat' split
  all_goals exact ⟨rfl, rfl⟩

theorem leavesPorts_seekLog : LeavesPorts (seekLog p args) := by
  intro s
  unfold seekLog
  split <;> exact ⟨rfl, rfl⟩

theorem leavesPorts_setSubscription : LeavesPorts (setSubscription p args) := by
  intro s
  unfold setSubscription
  split <;> exact ⟨rfl, rfl⟩

theorem endCaptureOf_ports (u : UnitId) (s : State) : (endCaptureOf u s).ports = s.ports ∧ (endCaptureOf u s).queues = s.queues := by
  unfold endCaptureOf
  repeat' split
  all_goals exact ⟨rfl, rfl⟩

theorem leavesPorts_armWatch : LeavesPorts (armWatch p args) := by
  intro s
  unfold armWatch armUnit
  dsimp only
  repeat' split
  all_goals simp [endCaptureOf_ports]

theorem leavesPorts_disarmWatch : LeavesPorts (disarmWatch p args) := by
  intro s
  unfold disarmWatch freeUnit
  repeat' split
  all_goals simp [endCaptureOf_ports]

theorem leavesPorts_readWatch : LeavesPorts (readWatch args) := by
  intro s
  unfold readWatch
  split <;> exact ⟨rfl, rfl⟩

theorem leavesPorts_readCapture : LeavesPorts (readCapture p args) := by
  intro s
  unfold readCapture
  dsimp only
  repeat' split
  all_goals exact ⟨rfl, rfl⟩

theorem leavesPorts_releaseCapture : LeavesPorts (releaseCapture p) := by
  intro s
  unfold releaseCapture
  repeat' split
  all_goals exact ⟨rfl, rfl⟩

theorem leavesPorts_claimLock : LeavesPorts (claimLock p args) := by
  intro s
  unfold claimLock claimHeld
  repeat' split
  all_goals exact ⟨rfl, rfl⟩

theorem leavesPorts_releaseLock : LeavesPorts (releaseLock p) := by
  intro s
  unfold releaseLock passLock
  repeat' split
  all_goals exact ⟨rfl, rfl⟩

theorem leavesPorts_setLease : LeavesPorts (setLease args) := by
  intro s
  unfold setLease
  split <;> exact ⟨rfl, rfl⟩

theorem leavesPorts_peekNotice : LeavesPorts (peekNotice p) := by
  intro s
  unfold peekNotice
  split <;> exact ⟨rfl, rfl⟩

end

/-! ### A port that an enabled source finds ASSERTED (R164, R165) -/

/-- An enabled status source that is set finds ATTN ASSERTED (R165). -/
def Alert (a : Access) (queue : List Notice) : Prop := enabledSource a queue = true → a.attn = true

theorem attentionLaw_iff (s : State) : AttentionLaw s ↔ ∀ p, Alert (s.ports.get p) (s.queues.get p) := by
  refine forall_congr' fun p => ?_
  have due : statusBits (s.ports.get p).latches (s.queues.get p) &&& (s.ports.get p).enables = 0
      ↔ enabledSource (s.ports.get p) (s.queues.get p) = false := by
    rw [← attentionDue_eq, attentionDue, bne_eq_false_iff_eq]
  rw [due, Alert]
  cases (s.ports.get p).attn <;> simp

section

variable {a b : Access} {queue : List Notice}

/-- An evaluation of ATTN (R165). -/
theorem alert_evaluateAttn (a : Access) (queue : List Notice) : Alert (evaluateAttn a queue) queue := by
  intro due
  rw [evaluateAttn_eq] at due ⊢
  exact Bool.or_eq_true_iff.mpr (.inr due)

/-- No source of a port without enables is enabled (R165). -/
theorem alert_of_disabled (disabled : a.enables = 0) : Alert a queue := by
  simp [Alert, enabledSource, disabled]

/-- A port on which no source is newly set and ATTN stays (R164, R165). -/
theorem Alert.lowered (h : Alert a queue) {left : List Notice} (enables : b.enables = a.enables) (attn : b.attn = a.attn)
    (pending : queue = [] → left = []) (latches : ∀ l, latchGet b.latches l = true → latchGet a.latches l = true) :
    Alert b left := by
  have fewer : (!left.isEmpty) = true → (!queue.isEmpty) = true := by
    cases queue with
    | nil => simp [pending rfl]
    | cons => exact fun _ => rfl
  intro due
  rw [attn]
  refine h ?_
  simp only [enabledSource, Bool.or_eq_true, Bool.and_eq_true, enables] at due ⊢
  exact due.imp (Or.imp (Or.imp (Or.imp (And.imp_right fewer) (And.imp_right (latches .noticeOverflow)))
    (And.imp_right (latches .logOverrun))) (And.imp_right (latches .captureDone))) (And.imp_right (latches .deviceAlert))

/-- What the exchange at a port leaves of it: the latches, the enables and ATTN. -/
def SameSources (a b : Access) : Prop := b.latches = a.latches ∧ b.enables = a.enables ∧ b.attn = a.attn

theorem SameSources.refl (a : Access) : SameSources a a := ⟨rfl, rfl, rfl⟩

theorem Alert.same (h : Alert a queue) (same : SameSources a b) : Alert b queue := by
  obtain ⟨latches, enables, attn⟩ := same
  exact h.lowered enables attn id fun l set => latches ▸ set

/-- A status source set event (R164, R165). -/
theorem Alert.raiseLatch (h : Alert a queue) (l : Latch) : Alert (raiseLatch a queue l) queue := by
  unfold Machine.raiseLatch
  split
  · exact h
  · exact alert_evaluateAttn _ queue

/-- CLEAR-STATUS clears latches and leaves ATTN (R167). -/
theorem Alert.latchesClear (h : Alert a queue) (mask : Byte) :
    Alert { a with latches := latchesClear a.latches mask } queue := by
  refine h.lowered rfl rfl id fun l set => ?_
  cases l <;> exact (Bool.and_eq_true_iff.mp set).1

/-! ### The exchange leaves the sources of a port (R157 to R159) -/

theorem sameSources_receiveBytes (bytes : List Byte) (a : Access) : SameSources a (receiveBytes bytes a) := by
  unfold receiveBytes receiveIdle receiveInit acceptFrame
  dsimp only
  repeat' split
  all_goals exact .refl _

theorem sameSources_releaseSelect (running : Bool) (sent : Nat) (a : Access) : SameSources a (releaseSelect running sent a) := by
  unfold releaseSelect releasePeriod
  dsimp only
  repeat' split
  all_goals exact .refl _

theorem sameSources_refuseSelect (a : Access) : SameSources a (refuseSelect a) := by
  unfold refuseSelect
  split <;> exact .refl _

theorem sameSources_deliverAnswer (a : Access) (ans : Answer) : SameSources a (deliverAnswer a ans) := by
  unfold deliverAnswer
  split <;> exact .refl _

theorem sameSources_portAtInitEnd (a : Access) : SameSources a (portAtInitEnd a) := by
  unfold portAtInitEnd
  split <;> exact .refl _

end

/-! ### The law of ATTN through the shared operations -/

section

variable {s : State} (law : AttentionLaw s)

include law

theorem AttentionLaw.alert (p : Port) : Alert (s.ports.get p) (s.queues.get p) := (attentionLaw_iff s).mp law p

theorem attentionLaw_of_eq {t : State} (ports : t.ports = s.ports) (queues : t.queues = s.queues) : AttentionLaw t := by
  intro p
  rw [ports, queues]
  exact law p

theorem attentionLaw_putPort {p : Port} {a : Access} (alert : Alert a (s.queues.get p)) : AttentionLaw (putPort s p a) := by
  refine (attentionLaw_iff _).mpr fun q => ?_
  rw [putPort_ports, putPort_queues, PerPort.get_set]
  split
  · next same => exact same ▸ alert
  · exact law.alert q

theorem attentionLaw_setQueue {p : Port} {queue : List Notice} (alert : Alert (s.ports.get p) queue) :
    AttentionLaw (setQueue s p queue) := by
  refine (attentionLaw_iff _).mpr fun q => ?_
  rw [setQueue_ports, setQueue_queues, PerPort.get_set]
  split
  · next same => exact same ▸ alert
  · exact law.alert q

/-- The Notice Unit empties a queue, or leaves of it what it held (R182, R183). -/
theorem attentionLaw_setQueue_left {p : Port} {left : List Notice} (pending : s.queues.get p = [] → left = []) :
    AttentionLaw (setQueue s p left) :=
  attentionLaw_setQueue law ((law.alert p).lowered rfl rfl pending fun _ set => set)

theorem attentionLaw_giveAnswer (p : Port) (ans : Answer) : AttentionLaw (giveAnswer s p ans) :=
  attentionLaw_putPort law ((law.alert p).same ⟨rfl, rfl, rfl⟩)

/-- Serving a request keeps the law when the block's work on it does. -/
theorem serve_keeps_attentionLaw (c : Command) (p : Port) {f : List Byte → State → Served}
    (hf : ∀ args t, AttentionLaw t → AttentionLaw (f args t).1) : AttentionLaw (serve c p f s) := by
  have marked : AttentionLaw (taken s p) := attentionLaw_putPort law ((law.alert p).same ⟨rfl, rfl, rfl⟩)
  obtain h | ⟨args, -, ⟨-, h⟩ | ⟨ans, -, h⟩⟩ := serve_cases c p f s <;> rw [h]
  · exact law
  · exact hf args _ marked
  · exact attentionLaw_giveAnswer (hf args _ marked) p ans

theorem serve_leavesPorts (c : Command) (p : Port) {f : List Byte → State → Served} (hf : ∀ args, LeavesPorts (f args)) :
    AttentionLaw (serve c p f s) :=
  serve_keeps_attentionLaw law c p fun args t ht => attentionLaw_of_eq ht (hf args t).1 (hf args t).2

/-- NOTICE_PENDING is newly set by a notice in an empty queue only, and ATTN is then evaluated (R180). -/
theorem attentionLaw_placeNotice (p : Port) (n : Notice) : AttentionLaw (placeNotice s p n) := by
  refine (attentionLaw_iff _).mpr fun q => ?_
  have ports : (placeNotice s p n).ports = s.ports.set p (if (s.queues.get p).isEmpty
      then evaluateAttn (s.ports.get p) (s.queues.get p ++ [n]) else s.ports.get p) := rfl
  have queues : (placeNotice s p n).queues = s.queues.set p (s.queues.get p ++ [n]) := rfl
  rw [ports, queues, PerPort.get_set, PerPort.get_set]
  split
  · split
    · exact alert_evaluateAttn _ _
    · next pending => exact (law.alert p).lowered rfl rfl (fun empty => absurd (List.isEmpty_iff.mpr empty) pending) fun _ set => set
  · exact law.alert q

theorem attentionLaw_placeNotices (n : Notice) (ports : List Port) :
    AttentionLaw (ports.foldl (fun t q => placeNotice t q n) s) := by
  induction ports generalizing s with
  | nil => exact law
  | cons q rest ih => exact ih (attentionLaw_placeNotice law q n)

/-! ### The work that changes a source, a queue or ATTN -/

theorem takeDeviceNotice_keeps_attentionLaw (src : NoticeSource) : AttentionLaw (takeDeviceNotice src s) := by
  unfold takeDeviceNotice placeDeviceNotice overflowNotice
  split
  · exact law
  · next n rest _ =>
    have left : AttentionLaw { s with posted := rest } := law
    split
    · exact attentionLaw_placeNotice left n.port n.notice
    · exact attentionLaw_putPort left ((left.alert n.port).raiseLatch _)

theorem takeStatusSource_keeps_attentionLaw (p : Port) (l : Latch) : AttentionLaw (takeStatusSource p l s) := by
  unfold takeStatusSource
  split
  · exact law
  · next rest _ => exact attentionLaw_putPort (s := { s with statusEvents := rest }) law ((law.alert p).raiseLatch l)

theorem postNote_keeps_attentionLaw (p : Port) (args : List Byte) : AttentionLaw (postNote p args s).1 := by
  unfold postNote postToOne postToAll
  dsimp only
  split
  · split
    · split
      · exact attentionLaw_placeNotice law _ _
      · exact law
    · exact attentionLaw_placeNotices law _ _
  · exact law

theorem takeNotice_keeps_attentionLaw (p : Port) : AttentionLaw (takeNotice p s).1 := by
  unfold takeNotice
  split
  · exact law
  · next held => exact attentionLaw_setQueue_left law fun empty => absurd (held.symm.trans empty) (List.cons_ne_nil _ _)

theorem flushNotices_keeps_attentionLaw (p : Port) : AttentionLaw (flushNotices p s).1 := by
  unfold flushNotices
  split
  · exact law
  · exact attentionLaw_setQueue_left law fun _ => rfl

theorem clearStatus_keeps_attentionLaw (p : Port) (args : List Byte) : AttentionLaw (clearStatus p args s).1 := by
  unfold clearStatus
  split
  · exact attentionLaw_putPort law ((law.alert p).latchesClear _)
  · exact law

theorem setAttention_keeps_attentionLaw (p : Port) (args : List Byte) : AttentionLaw (setAttention p args s).1 := by
  unfold setAttention
  split
  · exact attentionLaw_putPort law (alert_evaluateAttn _ _)
  · exact law

theorem rearmAttention_keeps_attentionLaw (p : Port) : AttentionLaw (rearmAttention p s).1 := by
  refine attentionLaw_putPort law ?_
  split
  · exact alert_evaluateAttn _ _
  · exact law.alert p

theorem portReset_keeps_attentionLaw (p : Port) : AttentionLaw (portReset p s).1 :=
  attentionLaw_putPort (s := withPortReset p s .begun) law (alert_of_disabled rfl)

theorem answerPort_keeps_attentionLaw (p : Port) : AttentionLaw (answerPort p s) := by
  unfold answerPort
  dsimp only
  split
  · split
    · exact law
    · exact attentionLaw_putPort (s := { s with portResets := s.portResets.set p none }) law
        ((law.alert p).same (sameSources_deliverAnswer _ _))
  · exact law

/-- A visit of MARK touches the table and its port's answer only (R85, R86). -/
theorem stepMark_keeps_attentionLaw (p : Port) (upset : Bool) : AttentionLaw (stepMark p upset s) := by
  have advance (w : MarkWalk) (t : State) (ht : AttentionLaw t) : AttentionLaw (advanceMark p w t) := by
    unfold advanceMark
    split
    · exact ht
    · exact attentionLaw_giveAnswer (s := setMarkWalk t p none) ht p _
  unfold stepMark
  split
  · exact law
  · unfold visitMark
    dsimp only
    repeat' split
    all_goals exact advance _ _ law

theorem endInit_keeps_attentionLaw (strobe : Bool) : AttentionLaw (endInit strobe s) := by
  refine (attentionLaw_iff _).mpr fun p => (law.alert p).same ?_
  have ended : (endInit strobe s).ports.get p = portAtInitEnd (s.ports.get p) := by cases p <;> rfl
  rw [ended]
  exact sameSources_portAtInitEnd _

/-- Every command keeps the law: a source newly set is followed by an evaluation of ATTN, and ATTN is set QUIET by none but an
evaluation or a port reset, which disables every source. -/
theorem exec_keeps_attentionLaw (c : Instr) : ∃ t, exec c s = .next t ∧ AttentionLaw t := by
  have disabled (t : State) (h : t.ports = .all .reset) : AttentionLaw t :=
    (attentionLaw_iff t).mpr fun p => by rw [h, PerPort.get_all]; exact alert_of_disabled rfl
  cases hc : (touches c).ports || (touches c).queues with
  | false =>
    obtain ⟨ports, queues⟩ := Bool.or_eq_false_iff.mp hc
    obtain ⟨t, ht, within⟩ := exec_within c s
    exact ⟨t, ht, attentionLaw_of_eq law (within.ports ports) (within.queues queues)⟩
  | true =>
    cases c with
    | resetAssert => exact ⟨_, rfl, disabled _ rfl⟩
    | resetRelease =>
      refine ⟨_, rfl, ?_⟩
      split
      · exact disabled _ rfl
      · exact law
    | initEnd strobe =>
      refine ⟨_, rfl, ?_⟩
      split
      · exact endInit_keeps_attentionLaw law strobe
      · exact law
    -- a block's part of a reset
    | portResetNotices p =>
      refine ⟨_, rfl, ?_⟩
      split
      · next parts _ =>
        split
        · exact law
        · exact attentionLaw_setQueue_left (s := withPortReset p s { parts with notices := true }) law fun _ => rfl
      · exact law
    | softResetNotices issuer =>
      refine ⟨_, rfl, ?_⟩
      split
      · split
        · exact law
        · exact (attentionLaw_iff _).mpr fun p => (law.alert p).lowered rfl rfl (fun _ => PerPort.get_all _ p) fun _ set => set
      · exact law
    | softResetPort issuer q =>
      refine ⟨_, rfl, ?_⟩
      split
      · next parts _ =>
        split
        · exact attentionLaw_putPort (s := withSoftReset issuer s { parts with ports := parts.ports.set q true }) law
            (alert_evaluateAttn _ _)
        · exact law
      · exact law
    -- the events that set a source
    | noticePlace src =>
      exact ⟨_, rfl, whenRunning_keeps AttentionLaw _ s (fun _ ht => takeDeviceNotice_keeps_attentionLaw ht src) law⟩
    | statusSourceSet p l =>
      exact ⟨_, rfl, whenRunning_keeps AttentionLaw _ s (fun _ ht => takeStatusSource_keeps_attentionLaw ht p l) law⟩
    -- the exchange at a port, and the answers of MARK and of SOFT-RESET
    | requestComplete p bytes =>
      refine ⟨_, rfl, ?_⟩
      split
      · exact law
      · exact attentionLaw_putPort law ((law.alert p).same (sameSources_receiveBytes bytes _))
    | selectRelease p sent =>
      refine ⟨_, rfl, ?_⟩
      split
      · exact law
      · exact attentionLaw_putPort law ((law.alert p).same (sameSources_releaseSelect _ sent _))
    | selectRefused p => exact ⟨_, rfl, attentionLaw_putPort law ((law.alert p).same (sameSources_refuseSelect _))⟩
    | blockAnswer p => exact ⟨_, rfl, answerPort_keeps_attentionLaw law p⟩
    | markVisit p upset =>
      exact ⟨_, rfl, whenRunning_keeps AttentionLaw _ s (fun _ ht => stepMark_keeps_attentionLaw ht p upset) law⟩
    | softResetVisit issuer upsets =>
      refine ⟨_, rfl, ?_⟩
      split
      · split
        · exact attentionLaw_giveAnswer (s := { visitTable upsets s with softResets := s.softResets.set issuer none }) law issuer _
        · exact law
      · exact law
    -- commands of the book that change a source, a queue or ATTN
    | clearStatus p =>
      exact ⟨_, rfl, serve_keeps_attentionLaw law _ p fun args _ ht => clearStatus_keeps_attentionLaw ht p args⟩
    | setAttention p =>
      exact ⟨_, rfl, serve_keeps_attentionLaw law _ p fun args _ ht => setAttention_keeps_attentionLaw ht p args⟩
    | rearmAttention p =>
      exact ⟨_, rfl, serve_keeps_attentionLaw law _ p fun args t ht =>
        noArgs_keeps AttentionLaw _ args t (fun _ ht => rearmAttention_keeps_attentionLaw ht p) ht⟩
    | portReset p =>
      exact ⟨_, rfl, serve_keeps_attentionLaw law _ p fun args t ht =>
        noArgs_keeps AttentionLaw _ args t (fun _ ht => portReset_keeps_attentionLaw ht p) ht⟩
    | postNote p =>
      exact ⟨_, rfl, serve_keeps_attentionLaw law _ p fun args _ ht => postNote_keeps_attentionLaw ht p args⟩
    | takeNotice p =>
      exact ⟨_, rfl, serve_keeps_attentionLaw law _ p fun args t ht =>
        noArgs_keeps AttentionLaw _ args t (fun _ ht => takeNotice_keeps_attentionLaw ht p) ht⟩
    | flushNotices p =>
      exact ⟨_, rfl, serve_keeps_attentionLaw law _ p fun args t ht =>
        noArgs_keeps AttentionLaw _ args t (fun _ ht => flushNotices_keeps_attentionLaw ht p) ht⟩
    -- the other commands of the book without arguments
    | identify | readStatus | readIntake | readTimebase | readSweep | readRating | readLogStatus | readLock =>
      exact ⟨_, rfl, serve_leavesPorts law _ _ (LeavesPorts.noArgs fun _ => ⟨rfl, rfl⟩)⟩
    | softReset | clearStrays =>
      exact ⟨_, rfl, serve_leavesPorts law _ _ (LeavesPorts.underLock (LeavesPorts.noArgs fun _ => ⟨rfl, rfl⟩) _)⟩
    | eraseLog p =>
      refine ⟨_, rfl, ?_⟩
      split
      · exact law
      · exact serve_leavesPorts law _ p (LeavesPorts.underLock (LeavesPorts.noArgs fun _ => ⟨rfl, rfl⟩) p)
    | abortSweep p => exact ⟨_, rfl, serve_leavesPorts law _ p (leavesPorts_abortSweep p).noArgs⟩
    | releaseCapture p => exact ⟨_, rfl, serve_leavesPorts law _ p (leavesPorts_releaseCapture p).noArgs⟩
    | releaseLock p => exact ⟨_, rfl, serve_leavesPorts law _ p (leavesPorts_releaseLock p).noArgs⟩
    | peekNotice p => exact ⟨_, rfl, serve_leavesPorts law _ p (leavesPorts_peekNotice p).noArgs⟩
    -- the other commands of the book with arguments
    | setTimebase p => exact ⟨_, rfl, serve_leavesPorts law _ p (LeavesPorts.underLock (leavesPorts_setTimebase p) p)⟩
    | defineStream p => exact ⟨_, rfl, serve_leavesPorts law _ p (LeavesPorts.underLock (leavesPorts_defineStream p) p)⟩
    | redefineStream p upset =>
      exact ⟨_, rfl, serve_leavesPorts law _ p (LeavesPorts.underLock (fun args => leavesPorts_redefineStream args upset) p)⟩
    | retireStream p => exact ⟨_, rfl, serve_leavesPorts law _ p (LeavesPorts.underLock (leavesPorts_retireStream p) p)⟩
    | clearTallies p =>
      exact ⟨_, rfl, serve_leavesPorts law _ p (LeavesPorts.underLock (fun args => leavesPorts_startSweep p args .clear) p)⟩
    | setGrading p upset =>
      exact ⟨_, rfl, serve_leavesPorts law _ p (LeavesPorts.underLock (fun args => leavesPorts_setGrading args upset) p)⟩
    | setRating p => exact ⟨_, rfl, serve_leavesPorts law _ p (LeavesPorts.underLock leavesPorts_setRating p)⟩
    | setLease p => exact ⟨_, rfl, serve_leavesPorts law _ p (LeavesPorts.underLock leavesPorts_setLease p)⟩
    | readDefinition p upset => exact ⟨_, rfl, serve_leavesPorts law _ p fun args => leavesPorts_readDefinition args upset⟩
    | listStreams p => exact ⟨_, rfl, serve_leavesPorts law _ p leavesPorts_listStreams⟩
    | readStrays p => exact ⟨_, rfl, serve_leavesPorts law _ p leavesPorts_readStrays⟩
    | readWindow p upset => exact ⟨_, rfl, serve_leavesPorts law _ p fun args => leavesPorts_readWindow args upset⟩
    | mark p => exact ⟨_, rfl, serve_leavesPorts law _ p (leavesPorts_startMark p)⟩
    | readSheet p upset => exact ⟨_, rfl, serve_leavesPorts law _ p fun args => leavesPorts_readSheet p args upset⟩
    | startScrub p => exact ⟨_, rfl, serve_leavesPorts law _ p fun args => leavesPorts_startSweep p args .scrub⟩
    | readGrades p upset => exact ⟨_, rfl, serve_leavesPorts law _ p fun args => leavesPorts_readGrades args upset⟩
    | readLog p => exact ⟨_, rfl, serve_leavesPorts law _ p (leavesPorts_readLog p)⟩
    | seekLog p => exact ⟨_, rfl, serve_leavesPorts law _ p (leavesPorts_seekLog p)⟩
    | setSubscription p => exact ⟨_, rfl, serve_leavesPorts law _ p (leavesPorts_setSubscription p)⟩
    | armWatch p => exact ⟨_, rfl, serve_leavesPorts law _ p (leavesPorts_armWatch p)⟩
    | disarmWatch p => exact ⟨_, rfl, serve_leavesPorts law _ p (leavesPorts_disarmWatch p)⟩
    | readWatch p => exact ⟨_, rfl, serve_leavesPorts law _ p leavesPorts_readWatch⟩
    | readCapture p => exact ⟨_, rfl, serve_leavesPorts law _ p (leavesPorts_readCapture p)⟩
    | claimLock p => exact ⟨_, rfl, serve_leavesPorts law _ p (leavesPorts_claimLock p)⟩
    | _ => cases hc

end

end Sys2Proof.Safety
end

section
/-! SUPPORT. Chapter 10's meanings case by case, in the words of the statements: the commands and the lease of the tally lock, the
notices placed, posted and read; and how a command refuses wrong arguments and a missing lock. -/

namespace Sys2Proof.Machine

open Sys2Proof.Safety

/-! ### CLAIM-LOCK and RELEASE-LOCK (R173 to R175) -/

/-- The lease that the setting grants is answered as the setting itself, 0 where it is NONE (R173, R174). -/
theorem leaseBytes_leaseGranted (setting : Nat) : leaseBytes (leaseGranted setting) = leBytes 2 setting := by
  unfold leaseBytes leaseGranted
  split
  · next zero => rw [zero]; rfl
  · rfl

theorem held_by_other {s : State} {p : Port} (held : s.lock.holding ≠ none) (other : ¬Holds s p) :
    ∃ h, s.lock.holding = some h ∧ h.port ≠ p := by
  obtain ⟨h, holding⟩ := Option.ne_none_iff_exists'.mp held
  exact ⟨h, holding, fun own => other ⟨h.lease, own ▸ holding⟩⟩

section

variable {s : State} {p : Port}

theorem claimLock_wrong {args : List Byte} (wrong : args.length ≠ 1 ∨ 1 < byteAt args 0) :
    claimLock p args s = refuse s .badValue := by
  rw [claimLock, fieldAt_byte, if_neg (by omega)]

section

variable {wait : Nat} (flag : wait ≤ 1)

include flag

theorem claimLock_free (free : s.lock.holding = none) : claimLock p (leBytes 1 wait) s =
    ({ s with lock := grantLock s.lock p }, some (.okData (leBytes 2 s.lock.setting))) := by
  have field : fieldAt (leBytes 1 wait) 0 1 = wait := fieldAt_leBytes 1 wait (by omega)
  simp only [claimLock, field, leBytes_length, flag, free, and_self, if_true, leaseBytes_leaseGranted]
  rfl

theorem claimLock_own {lease : Option Nat} (own : s.lock.holding = some { port := p, lease := lease }) :
    claimLock p (leBytes 1 wait) s =
      ({ s with lock := { s.lock with holding := some { port := p, lease := leaseGranted s.lock.setting } } },
        some { code := .renewed, data := leBytes 2 s.lock.setting }) := by
  have field : fieldAt (leBytes 1 wait) 0 1 = wait := fieldAt_leBytes 1 wait (by omega)
  simp only [claimLock, field, leBytes_length, flag, own, and_self, if_true, leaseBytes_leaseGranted]
  rfl

theorem claimLock_other {h : Holding} (held : s.lock.holding = some h) (other : h.port ≠ p) :
    claimLock p (leBytes 1 wait) s = claimHeld p (wait == 1) s := by
  have field : fieldAt (leBytes 1 wait) 0 1 = wait := fieldAt_leBytes 1 wait (by omega)
  simp only [claimLock, field, leBytes_length, flag, held, other, and_self, if_true, if_false]

end

theorem claimLock_tries {h : Holding} (held : s.lock.holding = some h) (other : h.port ≠ p) :
    claimLock p (leBytes 1 0) s = refuse s .lockHeld := claimLock_other (Nat.zero_le 1) held other

/-- A port that waits is entered once, and answered its place in the wait list (R174). -/
theorem claimLock_waits {h : Holding} (held : s.lock.holding = some h) (other : h.port ≠ p) : claimLock p (leBytes 1 1) s =
    let waiters := if p ∈ s.lock.waiters then s.lock.waiters else s.lock.waiters ++ [p]
    ({ s with lock := { s.lock with waiters := waiters } },
      some { code := .queued, data := leBytes 1 (waiters.idxOf p + 1) }) := by
  rw [claimLock_other (Nat.le_refl 1) held other]
  simp only [claimHeld, List.contains_iff_mem]
  rfl

theorem releaseLock_frees (holds : Holds s p) (alone : s.lock.waiters = []) :
    releaseLock p s = ({ s with lock := { s.lock with holding := none } }, some (.bare .ok)) := by
  rw [releaseLock, if_pos ((holdsLock_iff s p).mpr holds), passLock, alone]
  rfl

/-- The holder's lock passes to the first waiter, with cause 0 (R173, R175). -/
theorem releaseLock_passes {q : Port} {later : List Port} (holds : Holds s p) (waiting : s.lock.waiters = q :: later) :
    releaseLock p s =
      ({ s with
        lock := { s.lock with
          holding := some { port := q, lease := leaseGranted s.lock.setting },
          waiters := (q :: later).filter (fun x => x != q) },
        posted := s.posted ++ [sentNotice .lockArbiter q .lockGranted s.lock.setting] }, some (.bare .ok)) := by
  rw [releaseLock, if_pos ((holdsLock_iff s p).mpr holds)]
  simp only [passLock, grantLock, waiting]
  rfl

theorem releaseLock_leaves (other : ¬Holds s p) (waits : p ∈ s.lock.waiters) :
    releaseLock p s = (leaveWaiters s p, some (.bare .ok)) := by
  rw [releaseLock, if_neg (mt (holdsLock_iff s p).mp other), if_pos (List.contains_iff_mem.mpr waits)]
  rfl

theorem releaseLock_refused (other : ¬Holds s p) (absent : p ∉ s.lock.waiters) : releaseLock p s = refuse s .notHolder := by
  rw [releaseLock, if_neg (mt (holdsLock_iff s p).mp other), if_neg (mt List.contains_iff_mem.mp absent)]

/-! ### SET-LEASE and READ-LOCK (R178) -/

theorem setLease_layout {setting : Nat} (range : setting ≤ 65535) {lease : Option Nat}
    (own : s.lock.holding = some { port := p, lease := lease }) : setLease (leBytes 2 setting) s =
      ({ s with lock := { s.lock with
          setting := setting, holding := some { port := p, lease := leaseGranted setting } } },
        some (.okData (leBytes 2 setting))) := by
  have field : fieldAt (leBytes 2 setting) 0 2 = setting := fieldAt_leBytes 2 setting (by omega)
  rw [setLease, if_pos (leBytes_length 2 setting)]
  simp only [field, own, leaseBytes_leaseGranted]
  rfl

theorem setLease_wrong {args : List Byte} (wrong : args.length ≠ 2) : setLease args s = refuse s .badValue := by
  rw [setLease, if_neg wrong]

end

/-- The nine bytes of READ-LOCK, by whether the lock is held and by who waits (R178). -/
theorem lockBytes_eq (l : Lock) : lockBytes l =
    (match l.holding with
      | none => [0, 255, 0, 0]
      | some h => [1] ++ leBytes 1 (portNumber h.port) ++ leBytes 2 (h.lease.getD 0))
    ++ leBytes 2 l.setting ++ leBytes 1 l.waiters.length
    ++ (match l.waiters[0]? with
      | some q => leBytes 1 (portNumber q)
      | none => [255])
    ++ (match l.waiters[1]? with
      | some q => leBytes 1 (portNumber q)
      | none => [255]) := by
  have waiter (w : Option Port) : waiterByte w = match w with
      | some q => leBytes 1 (portNumber q)
      | none => [255] := by
    cases w <;> rfl
  simp only [lockBytes, waiter]
  cases l.holding <;> rfl

/-! ### A cycle event at the Lock Arbiter (R176) -/

section

variable {s : State} {k : Nat}

theorem exec_lockCycleEvent (running : Running s) (waiting : s.lock.events = k + 1) :
    exec .lockCycleEvent s = .next (countLease { s with lock := { s.lock with events := k } }) := by
  refine congrArg Host.Outcome.next ((whenRunning_running _ s running).trans ?_)
  rw [takeLockEvent, waiting]

/-- LEASE_EXPIRY is the cycle event that would bring the lease to 0 (R176, notes/assumptions/15). -/
theorem exec_leaseExpiry_ends (running : Running s) (ends : leaseAtEnd s.lock = true) :
    exec .leaseExpiry s = exec .lockCycleEvent s := by
  have takes : exec .lockCycleEvent s = .next (takeLockEvent s) := congrArg Host.Outcome.next (whenRunning_running _ s running)
  rw [takes]
  exact congrArg Host.Outcome.next ((whenRunning_running _ s running).trans (if_pos ends))

theorem exec_leaseExpiry_stays (stays : leaseAtEnd s.lock = false) : exec .leaseExpiry s = .next s :=
  congrArg Host.Outcome.next (whenRunning_eq_self (if_neg (Bool.eq_false_iff.mp stays)))

theorem countLease_free (free : s.lock.holding = none) : countLease s = s := by rw [countLease, free]

theorem countLease_unlimited {p : Port} (held : s.lock.holding = some { port := p, lease := none }) : countLease s = s := by
  rw [countLease, held]

theorem countLease_counts {p : Port} {n : Nat} (held : s.lock.holding = some { port := p, lease := some n }) (above : 2 ≤ n) :
    countLease s = { s with lock := { s.lock with holding := some { port := p, lease := some (n - 1) } } } := by
  rw [countLease, held]
  exact if_pos above

/-- A lease that ends leaves a lock without waiters FREE, with LOCK_LOST to its holder (R176). -/
theorem countLease_frees {p : Port} (held : s.lock.holding = some { port := p, lease := some 1 }) (alone : s.lock.waiters = []) :
    countLease s = { s with
      lock := { s.lock with holding := none }, posted := s.posted ++ [sentNotice .lockArbiter p .lockLost 255] } := by
  rw [countLease, held]
  simp only [Nat.lt_irrefl, if_false, expireLease, alone, passLock, post_lock]
  rfl

/-- A lease that ends passes the lock to the first waiter, with LOCK_LOST to the holder and cause 1 (R173, R176). -/
theorem countLease_passes {p q : Port} {later : List Port} (held : s.lock.holding = some { port := p, lease := some 1 })
    (waiting : s.lock.waiters = q :: later) : countLease s = { s with
      lock := { s.lock with
        holding := some { port := q, lease := leaseGranted s.lock.setting },
        waiters := (q :: later).filter (fun x => x != q) },
      posted := s.posted ++ [sentNotice .lockArbiter p .lockLost (portNumber q),
        sentNotice .lockArbiter q .lockGranted (s.lock.setting + 65536)] } := by
  have both {α : Type} (l : List α) (a b : α) : l ++ [a, b] = l ++ [a] ++ [b] := by simp
  rw [countLease, held, both]
  simp only [Nat.lt_irrefl, if_false, expireLease, waiting, passLock, grantLock, post_lock]
  rfl

end

/-! ### Notices placed and posted (R180, R181) -/

theorem exec_noticePlace {s : State} {src : NoticeSource} {n : Posted} {before after : List Posted} (running : Running s)
    (sent : s.posted = before ++ n :: after) (own : n.sender = src) (others : ∀ x ∈ before, x.sender ≠ src) :
    exec (.noticePlace src) s = .next (placeDeviceNotice n { s with posted := before ++ after }) := by
  refine congrArg Host.Outcome.next ((whenRunning_running _ s running).trans ?_)
  rw [takeDeviceNotice, sent, takePosted_eq src n before after own others]

section

variable {s : State} {p q : Port}

theorem queueHasRoom_full (full : 15 ≤ (s.queues.get q).length) : queueHasRoom s q = false :=
  Bool.eq_false_iff.mpr (mt (queueHasRoom_iff s q).mp (Nat.not_lt.mpr full))

theorem withNotice_pending (n : Notice) (pending : s.queues.get q ≠ []) :
    withNotice s q n = setQueue s q (s.queues.get q ++ [n]) := by
  simp only [withNotice, pending, if_false]
  rfl

theorem withNotice_empty (n : Notice) (empty : s.queues.get q = []) :
    withNotice s q n = putPort (setQueue s q [n]) q (attended (s.ports.get q) [n]) := by
  simp only [withNotice, empty, if_true]
  rfl

/-- A notice placed while a port's request is marked as taken (R157, R180). -/
theorem withNotice_taken (n : Notice) : withNotice (taken s p) q n = taken (withNotice s q n) p := by
  by_cases empty : s.queues.get q = []
  · rw [withNotice_empty n empty, withNotice_empty (s := taken s p) n empty]
    cases p <;> cases q <;> rfl
  · rw [withNotice_pending n empty, withNotice_pending (s := taken s p) n empty]
    rfl

theorem withNotices_taken (n : Notice) (ports : List Port) : ports.foldl (fun t q => withNotice t q n) (taken s p)
    = taken (ports.foldl (fun t q => withNotice t q n) s) p := by
  induction ports generalizing s with
  | nil => rfl
  | cons q rest ih => rw [List.foldl_cons, withNotice_taken, ih, List.foldl_cons]

/-- POST-NOTE with the number of its receiver and a word (R181). -/
theorem postNote_one (q : Port) (word : Word) : postNote p (leBytes 1 (portNumber q) ++ leBytes 4 word.toNat) s =
    postToOne q { kind := .note, source := some p, word := word } s := by
  have range : portNumber q ≤ 3 := by cases q <;> decide
  have named : portOfNumber (portNumber q) = some q := by cases q <;> rfl
  have length : (leBytes 1 (portNumber q) ++ leBytes 4 word.toNat).length = 5 := by simp
  obtain ⟨receiver, text⟩ := fieldAt_two 1 4 (portNumber q) word.toNat (by omega) word.isLt
  rw [postNote, receiver, text, if_pos ⟨length, range⟩, named, noteOf, BitVec.ofNat_toNat, BitVec.setWidth_eq]

/-- POST-NOTE with 3, ALL, and a word (R181). -/
theorem postNote_all (word : Word) : postNote p (leBytes 1 3 ++ leBytes 4 word.toNat) s =
    postToAll p { kind := .note, source := some p, word := word } s := by
  have length : (leBytes 1 3 ++ leBytes 4 word.toNat).length = 5 := by simp
  obtain ⟨receiver, text⟩ := fieldAt_two 1 4 3 word.toNat (by omega) word.isLt
  rw [postNote, receiver, text, if_pos ⟨length, Nat.le_refl 3⟩, noteOf, BitVec.ofNat_toNat, BitVec.setWidth_eq]
  rfl

theorem postNote_wrong {args : List Byte} (wrong : args.length ≠ 5 ∨ 3 < byteAt args 0) :
    postNote p args s = refuse s .badValue := by
  rw [postNote, fieldAt_byte, if_neg (by omega)]

theorem receivers_eq (s : State) (p : Port) :
    receivers s p = [Port.ap0, .ap1, .ap2].filter (fun q => decide (q ≠ p ∧ (s.queues.get q).length < 15)) := by
  refine List.filter_congr fun q _ => ?_
  rw [Bool.eq_iff_iff, Bool.and_eq_true, queueHasRoom_iff, bne_iff_ne, decide_eq_true_iff]

theorem postToAll_eq (n : Notice) : postToAll p n s =
    ((receivers s p).foldl (fun t q => withNotice t q n) s, some (.okData (leBytes 1 (receivers s p).length))) := by
  simp only [postToAll, placeNotice_eq]
  rfl

/-! ### Notices read (R182, R189) -/

/-- The six bytes of a notice (R189). -/
theorem noticeBytes_eq (n : Notice) : noticeBytes n = leBytes 1 (noticeKindCode n.kind)
    ++ leBytes 1 (match n.source with
      | some q => portNumber q
      | none => 3)
    ++ leBytes 4 n.word.toNat := by
  unfold noticeBytes noticeSourceCode
  cases n.source <;> rfl

theorem peekNotice_empty (empty : s.queues.get p = []) : peekNotice p s = refuse s .empty := by rw [peekNotice, empty]

theorem takeNotice_empty (empty : s.queues.get p = []) : takeNotice p s = refuse s .empty := by rw [takeNotice, empty]

theorem flushNotices_empty (empty : s.queues.get p = []) : flushNotices p s = refuse s .empty := by rw [flushNotices, empty]

section

variable {n : Notice} {later : List Notice} (held : s.queues.get p = n :: later)

include held

theorem peekNotice_oldest : peekNotice p s = doneWith s (noticeBytes n ++ leBytes 1 (later.length + 1)) := by
  rw [peekNotice, held]

theorem takeNotice_oldest : takeNotice p s = doneWith (setQueue s p later) (noticeBytes n ++ leBytes 1 later.length) := by
  rw [takeNotice, held]

theorem flushNotices_all : flushNotices p s = doneWith (setQueue s p []) (leBytes 1 (later.length + 1)) := by
  rw [flushNotices, held]
  rfl

end

end

/-! ### Requests that are refused (R177) -/

section

variable {s : State} {p : Port} {args : List Byte} {i : Instr}

/-- A command with arguments of its own answers BAD_VALUE to wrong ones. -/
theorem exec_refuses_wrong (c : Command) {f : List Byte → State → Served} (he : exec i s = .next (serve c p f s))
    (refused : f args (taken s p) = refuse (taken s p) .badValue) (hi : InHand s p (commandCode c) args) :
    exec i s = .next (answered s p (.bare .badValue)) :=
  he.trans (congrArg Host.Outcome.next (serve_inHand_answer hi c rfl f _ refused))

/-- A command without arguments answers BAD_VALUE to argument bytes. -/
theorem exec_refuses_args (c : Command) {f : State → Served} (he : exec i s = .next (serve c p (noArgs f) s))
    (given : args ≠ []) : InHand s p (commandCode c) args → exec i s = .next (answered s p (.bare .badValue)) :=
  exec_refuses_wrong c he (noArgs_cons f args _ given)

/-- A command that needs the tally lock answers LOCK_REQUIRED to a port that does not hold it (R177). -/
theorem exec_requires_lock (c : Command) {f : List Byte → State → Served} (he : exec i s = .next (serve c p (underLock p f) s))
    (other : ¬Holds s p) (hi : InHand s p (commandCode c) args) : exec i s = .next (answered s p (.bare .lockRequired)) :=
  he.trans (congrArg Host.Outcome.next
    (serve_inHand_answer hi c rfl _ _ (underLock_not p f args _ (holdsLock_taken_false s p other))))

/-- From the holder such a command looks at its arguments. -/
theorem exec_refuses_wrong_underLock (c : Command) {f : List Byte → State → Served}
    (he : exec i s = .next (serve c p (underLock p f) s)) (holds : Holds s p)
    (refused : f args (taken s p) = refuse (taken s p) .badValue) :
    InHand s p (commandCode c) args → exec i s = .next (answered s p (.bare .badValue)) :=
  exec_refuses_wrong c he ((underLock_holds p f args _ (holdsLock_taken holds)).trans refused)

end

/-- The argument that names a watch unit is one byte of 0..3 (R139). -/
theorem oneUnitArg_eq_none {args : List Byte} (wrong : args.length ≠ 1 ∨ 3 < byteAt args 0) : oneUnitArg args = none := by
  rw [oneUnitArg, fieldAt_byte]
  split
  · next length =>
    have outside : 3 < byteAt args 0 := wrong.resolve_left (not_not_intro length)
    cases named : unitOfNumber (byteAt args 0) with
    | none => rfl
    | some u =>
      rw [unitOfNumber_iff.mp named] at outside
      cases u <;> exact absurd outside (by decide)
  · rfl

section

variable {args : List Byte} (s : State) (p : Port)

theorem readSheet_wrong (wrong : args.length ≠ 3 ∨ 511 < halfAt args 0 ∨ 1 < byteAt args 2) (upset : Bool) :
    readSheet p upset args s = refuse s .badValue := by
  rw [readSheet, fieldAt_half, fieldAt_byte, if_neg (by omega)]

theorem startSweep_wrong (wrong : args.length ≠ 4 ∨ halfAt args 2 < halfAt args 0 ∨ 511 < halfAt args 2) (kind : SweepKind) :
    startSweep kind p args s = refuse s .badValue := by
  rw [startSweep, slotRangeArgs_eq_none wrong]

theorem readCapture_wrong (wrong : args.length ≠ 2 ∨ 63 < byteAt args 0 ∨ byteAt args 1 = 0 ∨ 16 < byteAt args 1) :
    readCapture p args s = refuse s .badValue := by
  rw [readCapture, fieldAt_byte, fieldAt_byte, if_neg (by omega)]

end

end Sys2Proof.Machine
end

section
/-! SUPPORT. The statements of chapter 10, the tally lock and the notice queues, and of the refusals that every chapter's commands
share. -/

namespace Sys2Proof.Safety

open Sys2Proof.Machine

/-! ### The laws that every step keeps (R165, R172, R180) -/

/-- A law that no queue of commands and no microsecond touches is kept by every step when every command keeps it. -/
theorem keptByEveryStep_of_exec {law : State → Prop} (hq : ∀ s q, law s → law { s with pending := q })
    (ht : ∀ s, law s → law (tickMicrosecond s)) (he : ∀ c s, law s → ∃ t, exec c s = .next t ∧ law t) : KeptByEveryStep law := by
  refine keptByEveryStep_of law hq ht fun c s t h next => ?_
  obtain ⟨u, hu, keeps⟩ := he c s h
  exact Host.Outcome.next.inj (hu.symm.trans next) ▸ keeps

/-- Settles O53: each law by the rows of its own block, which alone touch what it speaks of. -/
theorem everyStepKeepsTheLockNoticeAndAttentionLaws : Obligations.EveryStepKeepsTheLockNoticeAndAttentionLaws :=
  ⟨keptByEveryStep_of_exec (fun _ _ h => h) (fun _ h => h) fun c s h => exec_keeps_lockOk ((lockLaw_iff s).mp h) c,
    keptByEveryStep_of_exec (fun _ _ h => h) (fun _ h => h) fun c _ h => exec_keeps_noticeLaw h c,
    keptByEveryStep_of_exec (fun _ _ h => h) (fun _ h => h) fun c _ h => exec_keeps_attentionLaw h c⟩

/-! ### CLAIM-LOCK and RELEASE-LOCK (R173 to R175) -/

/-- Settles O50: CLAIM-LOCK by who holds the lock, RELEASE-LOCK by whether the port holds it or waits for it. -/
theorem lockIsClaimedAndReleased : Obligations.LockIsClaimedAndReleased := by
  intro s p lock lease
  refine ⟨fun wait flag hi => ?claim, fun args hi wrong => ?wrong, fun hi => ?release⟩
  case claim =>
    have claims {t : State} {ans : Answer} (h : claimLock p (leBytes 1 wait) (taken s p) = (taken t p, some ans)) :
        exec (.claimLock p) s = .next (answered t p ans) :=
      congrArg Host.Outcome.next (serve_answered hi .claimLock rfl h)
    refine ⟨fun free => claims (claimLock_free flag free), ?own, fun held other tries => ?tries, fun held other waits => ?waits⟩
    case own =>
      rintro ⟨lease, own⟩
      exact claims (claimLock_own flag own)
    case tries =>
      obtain ⟨h, held, foreign⟩ := held_by_other held other
      subst tries
      exact claims (claimLock_tries held foreign)
    case waits =>
      obtain ⟨h, held, foreign⟩ := held_by_other held other
      subst waits
      exact claims (claimLock_waits held foreign)
  case wrong => exact congrArg Host.Outcome.next (serve_answered hi .claimLock rfl (claimLock_wrong wrong))
  case release =>
    have releases {t : State} {ans : Answer} (h : releaseLock p (taken s p) = (taken t p, some ans)) :
        exec (.releaseLock p) s = .next (answered t p ans) :=
      congrArg Host.Outcome.next (serve_answered hi .releaseLock rfl h)
    exact ⟨fun holds alone => releases (releaseLock_frees holds alone),
      fun q later holds waiting => releases (releaseLock_passes holds waiting),
      fun other waits => releases (releaseLock_leaves other waits),
      fun other absent => releases (releaseLock_refused other absent)⟩

/-! ### SET-LEASE, READ-LOCK and the lease (R173, R176, R178) -/

/-- Settles O51: SET-LEASE and READ-LOCK on the lock as it stands, and a cycle event by the holder's lease. -/
theorem leaseIsSetReadAndCountedDown : Obligations.LeaseIsSetReadAndCountedDown := by
  refine ⟨fun s p setting holds range hi => ?set, fun s p args holds hi wrong => ?wrong, fun s p hi => ?read,
    fun s k running waiting => ?event⟩
  case set =>
    obtain ⟨lease, own⟩ := holds
    exact congrArg Host.Outcome.next
      (serve_underLock_answered ⟨lease, own⟩ hi .setLease rfl (setLease_layout (s := taken s p) range own))
  case wrong => exact congrArg Host.Outcome.next (serve_underLock_answered holds hi .setLease rfl (setLease_wrong wrong))
  case read =>
    intro waiter
    have reads : exec (.readLock p) s = .next (answered s p (.okData (lockBytes s.lock))) :=
      congrArg Host.Outcome.next (serve_answered hi .readLock rfl rfl)
    exact reads.trans (congrArg (fun bytes => Host.Outcome.next (answered s p (.okData bytes))) (lockBytes_eq s.lock))
  case event =>
    intro lock next
    have counts {t : State} (h : countLease { s with lock := lock } = t) : exec .lockCycleEvent s = .next t :=
      h ▸ exec_lockCycleEvent running waiting
    have ends {p : Port} (held : s.lock.holding = some { port := p, lease := some 1 }) : leaseAtEnd s.lock = true := by
      rw [leaseAtEnd, held]
      rfl
    refine ⟨fun free => ⟨counts (countLease_free free), exec_leaseExpiry_stays ?free⟩,
      fun p held => ⟨counts (countLease_unlimited held), exec_leaseExpiry_stays ?unlimited⟩,
      fun p n held above => ⟨counts (countLease_counts held above), exec_leaseExpiry_stays ?above⟩,
      fun p held alone => ?alone, fun p q later held waits => ?passes⟩
    case free => rw [leaseAtEnd, free]
    case unlimited => rw [leaseAtEnd, held]
    case above =>
      rw [leaseAtEnd, held]
      exact decide_eq_false (Nat.not_le.mpr above)
    case alone =>
      have takes := counts (countLease_frees held alone)
      exact ⟨takes, (exec_leaseExpiry_ends running (ends held)).trans takes⟩
    case passes =>
      have takes := counts (countLease_passes held waits)
      exact ⟨takes, (exec_leaseExpiry_ends running (ends held)).trans takes⟩

/-! ### Notices (R180 to R182, R189) -/

/-- Settles O52: a device notice and a NOTE by the room in the queue, and the three readings by whether a notice is held. -/
theorem noticesArePlacedPostedAndRead : Obligations.NoticesArePlacedPostedAndRead := by
  refine ⟨fun s src n before after running sent own others => ?device, fun s p q word hi => ?one, fun s p word hi => ?all,
    fun s p args hi wrong => ?wrong, fun s p => ?read⟩
  case device =>
    intro left
    rw [exec_noticePlace running sent own others]
    refine ⟨fun room => congrArg Host.Outcome.next ?_, fun full => congrArg Host.Outcome.next ?_⟩
    · rw [placeDeviceNotice, if_pos ((queueHasRoom_iff left n.port).mpr room), placeNotice_eq]
    · rw [placeDeviceNotice, if_neg (Bool.eq_false_iff.mp (queueHasRoom_full (s := left) full)), overflowNotice, raiseLatch_eq]
  case one =>
    refine ⟨fun room => congrArg Host.Outcome.next (serve_answered hi .postNote rfl ?_),
      fun full => congrArg Host.Outcome.next (serve_answered hi .postNote rfl ?_)⟩
    · rw [postNote_one, postToOne, if_pos ((queueHasRoom_iff (taken s p) q).mpr room), placeNotice_eq, withNotice_taken]
      rfl
    · rw [postNote_one, postToOne, if_neg (Bool.eq_false_iff.mp (queueHasRoom_full (s := taken s p) full))]
      rfl
  case all =>
    intro receivers
    refine congrArg Host.Outcome.next (serve_answered hi .postNote rfl ?_)
    rw [postNote_all, postToAll_eq, receivers_eq, withNotices_taken]
    rfl
  case wrong => exact congrArg Host.Outcome.next (serve_answered hi .postNote rfl (postNote_wrong wrong))
  case read =>
    intro without
    refine ⟨fun empty => ?empty, fun n later held => ?held⟩
    case empty =>
      exact ⟨fun hi => congrArg Host.Outcome.next (serve_answered hi .peekNotice rfl (peekNotice_empty empty)),
        fun hi => congrArg Host.Outcome.next (serve_answered hi .takeNotice rfl (takeNotice_empty empty)),
        fun hi => congrArg Host.Outcome.next (serve_answered hi .flushNotices rfl (flushNotices_empty empty))⟩
    case held =>
      intro notice
      have bytes : noticeBytes n = notice := noticeBytes_eq n
      rw [← bytes]
      exact ⟨fun hi => congrArg Host.Outcome.next (serve_answered hi .peekNotice rfl (peekNotice_oldest held)),
        fun hi => congrArg Host.Outcome.next (serve_answered hi .takeNotice rfl (takeNotice_oldest held)),
        fun hi => congrArg Host.Outcome.next (serve_answered hi .flushNotices rfl (flushNotices_all held))⟩

/-! ### Wrong arguments and a missing lock (R177) -/

/-- Settles O59: a command without arguments, one that needs the tally lock and one with arguments of its own each refuse before
they act. -/
theorem wrongArgumentsAndMissingLockAreRefused : Obligations.WrongArgumentsAndMissingLockAreRefused := by
  intro s p args refuses
  refine ⟨fun given => ?args, fun other => ?lock, fun wrong upset => ?slot, fun wrong upset => ?sheet, fun wrong => ?range,
    fun wrong => ?unit, fun wrong => ?capture⟩
  case args =>
    refine ⟨exec_refuses_args .identify rfl given, exec_refuses_args .readStatus rfl given,
      exec_refuses_args .rearmAttention rfl given, exec_refuses_args .portReset rfl given,
      exec_refuses_args .readIntake rfl given, fun _ => exec_refuses_args .readTimebase rfl given,
      exec_refuses_args .abortSweep rfl given, exec_refuses_args .readSweep rfl given,
      exec_refuses_args .readLogStatus rfl given, exec_refuses_args .releaseCapture rfl given,
      exec_refuses_args .releaseLock rfl given, exec_refuses_args .readLock rfl given,
      exec_refuses_args .peekNotice rfl given, exec_refuses_args .takeNotice rfl given,
      exec_refuses_args .flushNotices rfl given, fun holds => ?_⟩
    have refused (f : State → Served) : noArgs f args (taken s p) = refuse (taken s p) .badValue := noArgs_cons f args _ given
    exact ⟨exec_refuses_wrong_underLock .softReset rfl holds (refused _),
      exec_refuses_wrong_underLock .clearStrays rfl holds (refused _),
      fun between => exec_refuses_wrong_underLock .eraseLog (exec_eraseLog p between) holds (refused _)⟩
  case lock =>
    exact ⟨exec_requires_lock .softReset rfl other, exec_requires_lock .setTimebase rfl other,
      exec_requires_lock .defineStream rfl other, fun _ => exec_requires_lock .redefineStream rfl other,
      exec_requires_lock .retireStream rfl other, exec_requires_lock .clearStrays rfl other,
      exec_requires_lock .clearTallies rfl other, fun _ => exec_requires_lock .setGrading rfl other,
      exec_requires_lock .setRating rfl other, exec_requires_lock .setLease rfl other,
      fun between => exec_requires_lock .eraseLog (exec_eraseLog p between) other⟩
  case slot =>
    have unnamed := oneSlotArg_eq_none wrong
    exact ⟨exec_refuses_wrong .readDefinition rfl (by rw [readDefinition, unnamed]),
      exec_refuses_wrong .readWindow rfl (by rw [readWindow, unnamed]),
      exec_refuses_wrong .readGrades rfl (by rw [readGrades, unnamed])⟩
  case sheet => exact exec_refuses_wrong .readSheet rfl (readSheet_wrong _ p wrong upset)
  case range =>
    exact ⟨exec_refuses_wrong .startScrub rfl (startSweep_wrong _ p wrong .scrub),
      fun holds => exec_refuses_wrong_underLock .clearTallies rfl holds (startSweep_wrong _ p wrong .clear)⟩
  case unit =>
    have unnamed := oneUnitArg_eq_none wrong
    exact ⟨exec_refuses_wrong .disarmWatch rfl (by rw [disarmWatch, unnamed]),
      exec_refuses_wrong .readWatch rfl (by rw [readWatch, unnamed])⟩
  case capture => exact exec_refuses_wrong .readCapture rfl (readCapture_wrong _ p wrong)

end Sys2Proof.Safety
end

section
/-! SUPPORT. The statements about a step and the queue of commands: which command a step takes, and that a command answers a next
state and leaves the queue to the step. -/

namespace Sys2Proof.Safety

open Sys2Proof.Machine

/-- A step takes the command at the front of the queue and leaves the queue's rest to it. -/
theorem step_of_front {s : State} {c : Instr} {rest : List Instr} (front : s.pending = c :: rest) :
    step s = exec c { s with pending := rest } := by
  rw [step, front]

/-- Settles O1: the step of a state whose queue the command heads. -/
theorem stepTakesTheFrontCommand : Obligations.StepTakesTheFrontCommand :=
  fun _ _ _ => step_of_front rfl

/-- Settles O3, by the frame of the machine: the queue of commands lies outside the footprint of every command. -/
theorem everyCommandAnswersNextAndKeepsTheQueue : Obligations.EveryCommandAnswersNextAndKeepsTheQueue := by
  intro c s
  obtain ⟨t, answers, within⟩ := exec_within c s
  exact ⟨t, answers, within.pending⟩

end Sys2Proof.Safety
end
